-- ==== Sys2Proof/Word.lean ====
section
/-! DEFINITION. The word types of the GF2M-ECC engine: 32-bit window words, 512-bit field registers
(spec 00_scope section 4, rules R9 and R21). -/

namespace Sys2Proof

/-- A 32-bit word: what one access of the register window moves, and what a command is (R61, R90). -/
abbrev Word := BitVec 32

/-- A byte, for the byte view of the window (R63). -/
abbrev Byte := BitVec 8

/-- The contents of a field or scalar register: `FLEN` = 512 bits, bit 0 least significant (R9, R21). -/
abbrev FVal := BitVec 512

/-- The number of a field or scalar register, `F0` to `F15` (R21). -/
abbrev FReg := Fin 16

/-- The number of a point register, `P0` to `P7` (R25). -/
abbrev PReg := Fin 8

end Sys2Proof
end

