-- ==== Sys2Proof/Config.lean ====
section
/-! DEFINITION. The implementation parameters of spec 00_scope section 4, and the one value the spec leaves free.
DESIGN CHOICE (log 2): the starred parameters `LMAX` and `WMAX` are fixed at the spec's stated defaults. -/

namespace Sys2Proof.Config

/-- `WB`, bits per word. -/
def wordBits : Nat := 32

/-- `LMAX`, words per field register. -/
def lmax : Nat := 16

/-- `FLEN`, bits per field register: `32 * LMAX`. -/
def flen : Nat := wordBits * lmax

/-- `MMIN`, the least field degree `SETFIELD` admits. -/
def mMin : Nat := 2

/-- `MMAX`, the largest field degree `SETFIELD` admits: `FLEN - 1`. -/
def mMax : Nat := flen - 1

/-- `NF`, the number of field registers. -/
def numF : Nat := 16

/-- `NP`, the number of point registers. -/
def numP : Nat := 8

/-- `WMAX`, the largest window width the table holds. -/
def wmax : Nat := 8

/-- `TBLMAX`, entries per table half: `2^(WMAX - 2)`. -/
def tblMax : Nat := 2 ^ (wmax - 2)

/-- `NAFMAX`, entries of the NAF buffer: `16 * LMAX + 1`. -/
def nafMax : Nat := 16 * lmax + 1

/-- The size in bytes of the register window (R60). -/
def windowBytes : Nat := 0x1000

/-- FREE VALUE (log 3). What the `n`-th read of a reserved window offset returns: "an unspecified 32-bit value" (R66,
V2). It has no body, so nothing can be proved of it; `n` counts such reads in `State.draws`. -/
opaque reservedRead : Nat → BitVec 32

end Sys2Proof.Config
end

