-- ==== Sys2Proof/Syntax.lean ====
section
/-! DEFINITION. The 43 commands of command set GF2MECC-1.0, one constructor per row of the opcode map (R95), with the
operands their format names (R93): destination first, then first and second source, then the immediate (R99). -/

namespace Sys2Proof

/-- A command of the engine. `FReg` and `PReg` operands are register numbers; `imm` is the unsigned integer of the
12-bit immediate (R94), whose range `WellFormed` checks; `neg` is the `NEG` bit and `idx` the table index. -/
inductive Instr where
  -- system and data movement, 0x00 to 0x06
  | nop
  | setfield
  | setcurve (ra rb : FReg)
  | fload (rd : FReg)
  | fstore (ra : FReg)
  | fldi (rd : FReg) (imm : Nat)
  | fmov (rd ra : FReg)
  -- field, 0x10 to 0x1F
  | fadd (rd ra rb : FReg)
  | fmul (rd ra rb : FReg)
  | fsqr (rd ra : FReg)
  | fred (rd ra : FReg)
  | finv (rd ra : FReg)
  | ftrace (ra : FReg)
  | fsolve (rd ra : FReg)
  | ftstb (ra : FReg) (imm : Nat)
  | fsetb (rd ra : FReg) (imm : Nat)
  | fclrb (rd ra : FReg) (imm : Nat)
  | fblen (ra : FReg)
  | fshr (rd ra : FReg) (imm : Nat)
  | feq (ra rb : FReg)
  | fisz (ra : FReg)
  | fless (ra rb : FReg)
  -- point, 0x20 to 0x2C
  | pset (rd : PReg) (ra rb : FReg)
  | pgetx (rd : FReg) (ra : PReg)
  | pgety (rd : FReg) (ra : PReg)
  | pmov (rd ra : PReg)
  | padd (rd ra rb : PReg)
  | pdbl (rd ra : PReg)
  | pneg (rd ra : PReg)
  | pcmp (rd : FReg) (ra : PReg)
  | pexp (rd : PReg) (ra : FReg)
  | peq (ra rb : PReg)
  | pisid (ra : PReg)
  | pchk (ra : PReg)
  | pmul (rd ra : PReg) (rb : FReg) (neg : Bool)
  -- wNAF, 0x30 to 0x37
  | wsize (ra : FReg)
  | wsizei (imm : Nat)
  | wnaf (ra : FReg) (imm : Nat)
  | precomp (ra : PReg) (imm : Nat)
  | tblrd (rd : PReg) (neg : Bool) (idx : Fin 64)
  | mulpos (rd ra : PReg) (rb : FReg)
  | ptwp (rd ra rb : PReg)
  | ptp2 (rd ra : PReg) (imm : Nat)
  deriving DecidableEq, Repr

end Sys2Proof
end

