-- ==== Sys2Proof/WellFormed.lean ====
section
/-! DEFINITION. Which terms of `Instr` are commands. Register numbers, table indices and `NEG` bits are in range by
their types; the one thing left to check is that an immediate fits the 12 bits of `imm12` (R94). -/

namespace Sys2Proof

/-- An immediate is the unsigned integer of 12 bits: 0 to 4095 (R94). -/
def immInRange (imm : Nat) : Bool := decide (imm < 4096)

/-- The command can be written as a word: its immediate, if its format has one, is in range. -/
def Instr.wellFormed : Instr → Bool
  | .nop => true
  | .setfield => true
  | .setcurve _ _ => true
  | .fload _ => true
  | .fstore _ => true
  | .fldi _ imm => immInRange imm
  | .fmov _ _ => true
  | .fadd _ _ _ => true
  | .fmul _ _ _ => true
  | .fsqr _ _ => true
  | .fred _ _ => true
  | .finv _ _ => true
  | .ftrace _ => true
  | .fsolve _ _ => true
  | .ftstb _ imm => immInRange imm
  | .fsetb _ _ imm => immInRange imm
  | .fclrb _ _ imm => immInRange imm
  | .fblen _ => true
  | .fshr _ _ imm => immInRange imm
  | .feq _ _ => true
  | .fisz _ => true
  | .fless _ _ => true
  | .pset _ _ _ => true
  | .pgetx _ _ => true
  | .pgety _ _ => true
  | .pmov _ _ => true
  | .padd _ _ _ => true
  | .pdbl _ _ => true
  | .pneg _ _ => true
  | .pcmp _ _ => true
  | .pexp _ _ => true
  | .peq _ _ => true
  | .pisid _ => true
  | .pchk _ => true
  | .pmul _ _ _ _ => true
  | .wsize _ => true
  | .wsizei imm => immInRange imm
  | .wnaf _ imm => immInRange imm
  | .precomp _ imm => immInRange imm
  | .tblrd _ _ _ => true
  | .mulpos _ _ _ => true
  | .ptwp _ _ _ => true
  | .ptp2 _ _ imm => immInRange imm

end Sys2Proof
end

