-- ==== Sys2Proof/Decode.lean ====
section
/-! DEFINITION. Decoding a command word (R91 to R96), and the encoder written from the same fields. Decoding reads
nothing but the word; every 32-bit word either is exactly one command or is rejected by name. -/

namespace Sys2Proof

/-- Why a word is no command (R96): both reasons raise the engine fault `IllegalCommand`. -/
inductive DecodeError where
  /-- Case (a): the opcode is none of the 43. -/
  | unassignedOpcode
  /-- Cases (b) to (d): a bit the format requires to be zero is 1. -/
  | reservedBitSet
  deriving DecidableEq, Repr

/-! ### The fields of a word (R92) -/

/-- `op`, bits 31:24. -/
def opField (w : Word) : BitVec 8 := w.extractLsb' 24 8

/-- `rd`, bits 23:20. -/
def rdField (w : Word) : BitVec 4 := w.extractLsb' 20 4

/-- `ra`, bits 19:16. -/
def raField (w : Word) : BitVec 4 := w.extractLsb' 16 4

/-- `rb`, bits 15:12. -/
def rbField (w : Word) : BitVec 4 := w.extractLsb' 12 4

/-- `imm12`, bits 11:0. -/
def immField (w : Word) : BitVec 12 := w.extractLsb' 0 12

/-- A word from its five fields, highest first (R92). -/
def mkWord (op : BitVec 8) (rd ra rb : BitVec 4) (imm : BitVec 12) : Word := op ++ rd ++ ra ++ rb ++ imm

/-- A register field read as a field register number (R94). -/
def fieldFReg (x : BitVec 4) : FReg := ⟨x.toNat, x.isLt⟩

/-- A register field read as a point register number: its low three bits (R94). -/
def fieldPReg (x : BitVec 4) : PReg := ⟨x.toNat % 8, Nat.mod_lt _ (by decide)⟩

/-- The immediate as the unsigned integer the commands use (R94). -/
def immValue (w : Word) : Nat := (immField w).toNat

/-- The table index of `TBLRD`: `imm12[5:0]` (R94). -/
def idxValue (w : Word) : Fin 64 := ⟨immValue w % 64, Nat.mod_lt _ (by decide)⟩

/-- The field of a field register number. -/
def fregField (r : FReg) : BitVec 4 := BitVec.ofNat 4 r.val

/-- The field of a point register number: its top bit is 0. -/
def pregField (r : PReg) : BitVec 4 := BitVec.ofNat 4 r.val

/-- The immediate field of an integer. -/
def immBits (imm : Nat) : BitVec 12 := BitVec.ofNat 12 imm

/-- The immediate field of `PMUL`: `NEG` is bit 0 (R93). -/
def pmulImm (neg : Bool) : BitVec 12 := if neg then 1#12 else 0#12

/-- The immediate field of `TBLRD`: `NEG` is bit 11, the index bits 5:0 (R93). -/
def tblrdImm (neg : Bool) (idx : Fin 64) : BitVec 12 := (if neg then 0x800#12 else 0#12) ||| BitVec.ofNat 12 idx.val

/-! ### Formats and their masks (R93) -/

/-- The 22 formats of R93. -/
inductive Format where
  | z | fd | fa | fdFa | fdFaFb | faFb | fdI | faI | fdFaI | i | pdFaFb | fdPa | pdPa | pdPaPb | pdFa | paPb | pa | pdPaFbN | pdPaFb | paI | pdT | pdPaI
  deriving DecidableEq, Repr

/-- The bits a format fixes: every opcode bit, and a 1 wherever the format requires a zero (R91, R93). -/
def Format.mask : Format → Word
  | .z => mkWord 0xFF#8 0xF#4 0xF#4 0xF#4 0xFFF#12
  | .fd => mkWord 0xFF#8 0x0#4 0xF#4 0xF#4 0xFFF#12
  | .fa => mkWord 0xFF#8 0xF#4 0x0#4 0xF#4 0xFFF#12
  | .fdFa => mkWord 0xFF#8 0x0#4 0x0#4 0xF#4 0xFFF#12
  | .fdFaFb => mkWord 0xFF#8 0x0#4 0x0#4 0x0#4 0xFFF#12
  | .faFb => mkWord 0xFF#8 0xF#4 0x0#4 0x0#4 0xFFF#12
  | .fdI => mkWord 0xFF#8 0x0#4 0xF#4 0xF#4 0x000#12
  | .faI => mkWord 0xFF#8 0xF#4 0x0#4 0xF#4 0x000#12
  | .fdFaI => mkWord 0xFF#8 0x0#4 0x0#4 0xF#4 0x000#12
  | .i => mkWord 0xFF#8 0xF#4 0xF#4 0xF#4 0x000#12
  | .pdFaFb => mkWord 0xFF#8 0x8#4 0x0#4 0x0#4 0xFFF#12
  | .fdPa => mkWord 0xFF#8 0x0#4 0x8#4 0xF#4 0xFFF#12
  | .pdPa => mkWord 0xFF#8 0x8#4 0x8#4 0xF#4 0xFFF#12
  | .pdPaPb => mkWord 0xFF#8 0x8#4 0x8#4 0x8#4 0xFFF#12
  | .pdFa => mkWord 0xFF#8 0x8#4 0x0#4 0xF#4 0xFFF#12
  | .paPb => mkWord 0xFF#8 0xF#4 0x8#4 0x8#4 0xFFF#12
  | .pa => mkWord 0xFF#8 0xF#4 0x8#4 0xF#4 0xFFF#12
  | .pdPaFbN => mkWord 0xFF#8 0x8#4 0x8#4 0x0#4 0xFFE#12
  | .pdPaFb => mkWord 0xFF#8 0x8#4 0x8#4 0x0#4 0xFFF#12
  | .paI => mkWord 0xFF#8 0xF#4 0x8#4 0xF#4 0x000#12
  | .pdT => mkWord 0xFF#8 0x8#4 0xF#4 0xF#4 0x7C0#12
  | .pdPaI => mkWord 0xFF#8 0x8#4 0x8#4 0xF#4 0x000#12

/-! ### The opcode map (R95) -/

/-- One row of the opcode map: the mnemonic, the opcode, the format, and the command a word of the row stands for. -/
structure OpcodeRow where
  mnemonic : String
  op : BitVec 8
  format : Format
  read : Word → Instr

/-- `match` of the row: `op << 24` (R91). -/
def OpcodeRow.matchBits (r : OpcodeRow) : Word := mkWord r.op 0 0 0 0

/-- The word passes the row's test `(w & mask) = match` (R91). -/
def OpcodeRow.accepts (r : OpcodeRow) (w : Word) : Bool := w &&& r.format.mask == r.matchBits

/-- System and data movement, 0x00 to 0x06. -/
def systemRows : List OpcodeRow :=
  [ ⟨"NOP", 0x00#8, .z, fun _ => .nop⟩,
    ⟨"SETFIELD", 0x01#8, .z, fun _ => .setfield⟩,
    ⟨"SETCURVE", 0x02#8, .faFb, fun w => .setcurve (fieldFReg (raField w)) (fieldFReg (rbField w))⟩,
    ⟨"FLOAD", 0x03#8, .fd, fun w => .fload (fieldFReg (rdField w))⟩,
    ⟨"FSTORE", 0x04#8, .fa, fun w => .fstore (fieldFReg (raField w))⟩,
    ⟨"FLDI", 0x05#8, .fdI, fun w => .fldi (fieldFReg (rdField w)) (immValue w)⟩,
    ⟨"FMOV", 0x06#8, .fdFa, fun w => .fmov (fieldFReg (rdField w)) (fieldFReg (raField w))⟩ ]

/-- Field, 0x10 to 0x1F. -/
def fieldRows : List OpcodeRow :=
  [ ⟨"FADD", 0x10#8, .fdFaFb, fun w => .fadd (fieldFReg (rdField w)) (fieldFReg (raField w)) (fieldFReg (rbField w))⟩,
    ⟨"FMUL", 0x11#8, .fdFaFb, fun w => .fmul (fieldFReg (rdField w)) (fieldFReg (raField w)) (fieldFReg (rbField w))⟩,
    ⟨"FSQR", 0x12#8, .fdFa, fun w => .fsqr (fieldFReg (rdField w)) (fieldFReg (raField w))⟩,
    ⟨"FRED", 0x13#8, .fdFa, fun w => .fred (fieldFReg (rdField w)) (fieldFReg (raField w))⟩,
    ⟨"FINV", 0x14#8, .fdFa, fun w => .finv (fieldFReg (rdField w)) (fieldFReg (raField w))⟩,
    ⟨"FTRACE", 0x15#8, .fa, fun w => .ftrace (fieldFReg (raField w))⟩,
    ⟨"FSOLVE", 0x16#8, .fdFa, fun w => .fsolve (fieldFReg (rdField w)) (fieldFReg (raField w))⟩,
    ⟨"FTSTB", 0x18#8, .faI, fun w => .ftstb (fieldFReg (raField w)) (immValue w)⟩,
    ⟨"FSETB", 0x19#8, .fdFaI, fun w => .fsetb (fieldFReg (rdField w)) (fieldFReg (raField w)) (immValue w)⟩,
    ⟨"FCLRB", 0x1A#8, .fdFaI, fun w => .fclrb (fieldFReg (rdField w)) (fieldFReg (raField w)) (immValue w)⟩,
    ⟨"FBLEN", 0x1B#8, .fa, fun w => .fblen (fieldFReg (raField w))⟩,
    ⟨"FSHR", 0x1C#8, .fdFaI, fun w => .fshr (fieldFReg (rdField w)) (fieldFReg (raField w)) (immValue w)⟩,
    ⟨"FEQ", 0x1D#8, .faFb, fun w => .feq (fieldFReg (raField w)) (fieldFReg (rbField w))⟩,
    ⟨"FISZ", 0x1E#8, .fa, fun w => .fisz (fieldFReg (raField w))⟩,
    ⟨"FLESS", 0x1F#8, .faFb, fun w => .fless (fieldFReg (raField w)) (fieldFReg (rbField w))⟩ ]

/-- Point, 0x20 to 0x2C. -/
def pointRows : List OpcodeRow :=
  [ ⟨"PSET", 0x20#8, .pdFaFb, fun w => .pset (fieldPReg (rdField w)) (fieldFReg (raField w)) (fieldFReg (rbField w))⟩,
    ⟨"PGETX", 0x21#8, .fdPa, fun w => .pgetx (fieldFReg (rdField w)) (fieldPReg (raField w))⟩,
    ⟨"PGETY", 0x22#8, .fdPa, fun w => .pgety (fieldFReg (rdField w)) (fieldPReg (raField w))⟩,
    ⟨"PMOV", 0x23#8, .pdPa, fun w => .pmov (fieldPReg (rdField w)) (fieldPReg (raField w))⟩,
    ⟨"PADD", 0x24#8, .pdPaPb, fun w => .padd (fieldPReg (rdField w)) (fieldPReg (raField w)) (fieldPReg (rbField w))⟩,
    ⟨"PDBL", 0x25#8, .pdPa, fun w => .pdbl (fieldPReg (rdField w)) (fieldPReg (raField w))⟩,
    ⟨"PNEG", 0x26#8, .pdPa, fun w => .pneg (fieldPReg (rdField w)) (fieldPReg (raField w))⟩,
    ⟨"PCMP", 0x27#8, .fdPa, fun w => .pcmp (fieldFReg (rdField w)) (fieldPReg (raField w))⟩,
    ⟨"PEXP", 0x28#8, .pdFa, fun w => .pexp (fieldPReg (rdField w)) (fieldFReg (raField w))⟩,
    ⟨"PEQ", 0x29#8, .paPb, fun w => .peq (fieldPReg (raField w)) (fieldPReg (rbField w))⟩,
    ⟨"PISID", 0x2A#8, .pa, fun w => .pisid (fieldPReg (raField w))⟩,
    ⟨"PCHK", 0x2B#8, .pa, fun w => .pchk (fieldPReg (raField w))⟩,
    ⟨"PMUL", 0x2C#8, .pdPaFbN, fun w => .pmul (fieldPReg (rdField w)) (fieldPReg (raField w)) (fieldFReg (rbField w)) ((immField w).getLsbD 0)⟩ ]

/-- wNAF, 0x30 to 0x37. -/
def wnafRows : List OpcodeRow :=
  [ ⟨"WSIZE", 0x30#8, .fa, fun w => .wsize (fieldFReg (raField w))⟩,
    ⟨"WSIZEI", 0x31#8, .i, fun w => .wsizei (immValue w)⟩,
    ⟨"WNAF", 0x32#8, .faI, fun w => .wnaf (fieldFReg (raField w)) (immValue w)⟩,
    ⟨"PRECOMP", 0x33#8, .paI, fun w => .precomp (fieldPReg (raField w)) (immValue w)⟩,
    ⟨"TBLRD", 0x34#8, .pdT, fun w => .tblrd (fieldPReg (rdField w)) ((immField w).getLsbD 11) (idxValue w)⟩,
    ⟨"MULPOS", 0x35#8, .pdPaFb, fun w => .mulpos (fieldPReg (rdField w)) (fieldPReg (raField w)) (fieldFReg (rbField w))⟩,
    ⟨"PTWP", 0x36#8, .pdPaPb, fun w => .ptwp (fieldPReg (rdField w)) (fieldPReg (raField w)) (fieldPReg (rbField w))⟩,
    ⟨"PTP2", 0x37#8, .pdPaI, fun w => .ptp2 (fieldPReg (rdField w)) (fieldPReg (raField w)) (immValue w)⟩ ]

/-- The 43 rows of the opcode map. -/
def opcodeMap : List OpcodeRow := systemRows ++ fieldRows ++ pointRows ++ wnafRows

/-- Decoding (R91): find the row of the opcode, test the bits the format fixes, read the operands. -/
def decode (w : Word) : Except DecodeError Instr :=
  match opcodeMap.find? (fun r => r.op == opField w) with
  | none => .error .unassignedOpcode
  | some r => if r.accepts w then .ok (r.read w) else .error .reservedBitSet

/-- The word of a command: its opcode (R95), its operands in the fields its format names, every other bit 0 (R93). -/
def encode : Instr → Word
  | .nop => mkWord 0x00#8 0 0 0 0
  | .setfield => mkWord 0x01#8 0 0 0 0
  | .setcurve ra rb => mkWord 0x02#8 0 (fregField ra) (fregField rb) 0
  | .fload rd => mkWord 0x03#8 (fregField rd) 0 0 0
  | .fstore ra => mkWord 0x04#8 0 (fregField ra) 0 0
  | .fldi rd imm => mkWord 0x05#8 (fregField rd) 0 0 (immBits imm)
  | .fmov rd ra => mkWord 0x06#8 (fregField rd) (fregField ra) 0 0
  | .fadd rd ra rb => mkWord 0x10#8 (fregField rd) (fregField ra) (fregField rb) 0
  | .fmul rd ra rb => mkWord 0x11#8 (fregField rd) (fregField ra) (fregField rb) 0
  | .fsqr rd ra => mkWord 0x12#8 (fregField rd) (fregField ra) 0 0
  | .fred rd ra => mkWord 0x13#8 (fregField rd) (fregField ra) 0 0
  | .finv rd ra => mkWord 0x14#8 (fregField rd) (fregField ra) 0 0
  | .ftrace ra => mkWord 0x15#8 0 (fregField ra) 0 0
  | .fsolve rd ra => mkWord 0x16#8 (fregField rd) (fregField ra) 0 0
  | .ftstb ra imm => mkWord 0x18#8 0 (fregField ra) 0 (immBits imm)
  | .fsetb rd ra imm => mkWord 0x19#8 (fregField rd) (fregField ra) 0 (immBits imm)
  | .fclrb rd ra imm => mkWord 0x1A#8 (fregField rd) (fregField ra) 0 (immBits imm)
  | .fblen ra => mkWord 0x1B#8 0 (fregField ra) 0 0
  | .fshr rd ra imm => mkWord 0x1C#8 (fregField rd) (fregField ra) 0 (immBits imm)
  | .feq ra rb => mkWord 0x1D#8 0 (fregField ra) (fregField rb) 0
  | .fisz ra => mkWord 0x1E#8 0 (fregField ra) 0 0
  | .fless ra rb => mkWord 0x1F#8 0 (fregField ra) (fregField rb) 0
  | .pset rd ra rb => mkWord 0x20#8 (pregField rd) (fregField ra) (fregField rb) 0
  | .pgetx rd ra => mkWord 0x21#8 (fregField rd) (pregField ra) 0 0
  | .pgety rd ra => mkWord 0x22#8 (fregField rd) (pregField ra) 0 0
  | .pmov rd ra => mkWord 0x23#8 (pregField rd) (pregField ra) 0 0
  | .padd rd ra rb => mkWord 0x24#8 (pregField rd) (pregField ra) (pregField rb) 0
  | .pdbl rd ra => mkWord 0x25#8 (pregField rd) (pregField ra) 0 0
  | .pneg rd ra => mkWord 0x26#8 (pregField rd) (pregField ra) 0 0
  | .pcmp rd ra => mkWord 0x27#8 (fregField rd) (pregField ra) 0 0
  | .pexp rd ra => mkWord 0x28#8 (pregField rd) (fregField ra) 0 0
  | .peq ra rb => mkWord 0x29#8 0 (pregField ra) (pregField rb) 0
  | .pisid ra => mkWord 0x2A#8 0 (pregField ra) 0 0
  | .pchk ra => mkWord 0x2B#8 0 (pregField ra) 0 0
  | .pmul rd ra rb neg => mkWord 0x2C#8 (pregField rd) (pregField ra) (fregField rb) (pmulImm neg)
  | .wsize ra => mkWord 0x30#8 0 (fregField ra) 0 0
  | .wsizei imm => mkWord 0x31#8 0 0 0 (immBits imm)
  | .wnaf ra imm => mkWord 0x32#8 0 (fregField ra) 0 (immBits imm)
  | .precomp ra imm => mkWord 0x33#8 0 (pregField ra) 0 (immBits imm)
  | .tblrd rd neg idx => mkWord 0x34#8 (pregField rd) 0 0 (tblrdImm neg idx)
  | .mulpos rd ra rb => mkWord 0x35#8 (pregField rd) (pregField ra) (fregField rb) 0
  | .ptwp rd ra rb => mkWord 0x36#8 (pregField rd) (pregField ra) (pregField rb) 0
  | .ptp2 rd ra imm => mkWord 0x37#8 (pregField rd) (pregField ra) 0 (immBits imm)

/-- The host's probe: the command the decoder reads from an instruction whose low `nbits` bits are `w`, every bit above
them zero. Every row of the table is one 32-bit word (R90), and a command word is a value, not bytes (R63). -/
def decodeTableWord (nbits w : Nat) : Option Instr := (decode (BitVec.ofNat 32 (w % 2 ^ nbits))).toOption

end Sys2Proof
end

