-- ==== Sys2Proof/Machine/State.lean ====
section
/-! DEFINITION. The state of the engine (rule R20 and the rules it names), the host's side of the bus, the value types
the arithmetic uses, and the reset state (R50, R341). State is plain data. -/

namespace Sys2Proof.Machine

/-! ### Values the arithmetic is about -/

/-- A point as a pair of field values, integers below `2^m` (R27). -/
structure Point where
  x : Nat
  y : Nat
  deriving DecidableEq, Repr

/-- The field context as the field functions use it: the degree `m` and the modulus `f` as an integer (R29). -/
structure FieldCtx where
  m : Nat
  f : Nat
  deriving DecidableEq, Repr

/-- The field and curve context as the point functions use it: `y² + x·y = x³ + a·x² + b` over `fld` (R31). -/
structure CurveCtx where
  fld : FieldCtx
  a : Nat
  b : Nat
  deriving DecidableEq, Repr

/-- What one scan computes (R218): the point, and what it leaves in the table and the NAF buffer. -/
structure ScanResult where
  point : Point
  width : Nat
  tpos : List Point
  tneg : List Point
  naf : List Word
  deriving DecidableEq, Repr

/-- The causes of an engine fault (R301); `FaultCode.code` gives their numbers. -/
inductive FaultCode where
  | illegalCommand
  | noField
  | noCurve
  | uninit
  | badField
  | badCurve
  | noInverse
  | unsupported
  | noRoot
  | range
  | noTable
  deriving DecidableEq, Repr

/-! ### The host's side of the bus -/

/-- The width of a host access (R64): only `word` is admitted. -/
inductive AccessSize where
  | byte
  | half
  | word
  | double
  | burst
  deriving DecidableEq, Repr

/-- One action of the host on the engine (R13, R61, R340). An offset is relative to `BASE` (R60). -/
inductive HostAccess where
  /-- `MemRead(BASE + off, size)`. -/
  | read (off : Nat) (size : AccessSize)
  /-- `MemWrite(BASE + off, size, v)`. -/
  | write (off : Nat) (size : AccessSize) (v : Word)
  /-- The hardware reset input is asserted (R340). -/
  | resetInput
  deriving DecidableEq, Repr

/-! ### Architectural state -/

/-- The contents of a point register or table entry: two 512-bit coordinates (R25). -/
structure PointReg where
  x : FVal
  y : FVal
  deriving DecidableEq, Repr

/-- The whole state: the engine's tuple of R20, then three fields of the model's own (`pending`, `replies`, `draws`)
that hold the host's side of the bus and the count of free draws. -/
structure State where
  /-- `F[0..15]`, field and scalar registers (R21). -/
  f : Vector FVal 16
  /-- `FVAL[0..15]`, their valid bits (R22). -/
  fval : Vector Bool 16
  /-- `P[0..7]`, point registers (R25). -/
  p : Vector PointReg 8
  /-- `PVAL[0..7]`, their valid bits (R25). -/
  pval : Vector Bool 8
  /-- `RES` (R28). -/
  res : Word
  /-- `FV`, field context valid (R29). -/
  fv : Bool
  /-- `M`, the active degree (R29). -/
  fldM : Word
  /-- `NK`, the number of middle exponents (R29). -/
  fldNk : Word
  /-- `K1` (R29). -/
  fldK1 : Word
  /-- `K2` (R29). -/
  fldK2 : Word
  /-- `K3` (R29). -/
  fldK3 : Word
  /-- `CFG_M` (R30). -/
  cfgM : Word
  /-- `CFG_NK` (R30). -/
  cfgNk : Word
  /-- `CFG_K1` (R30). -/
  cfgK1 : Word
  /-- `CFG_K2` (R30). -/
  cfgK2 : Word
  /-- `CFG_K3` (R30). -/
  cfgK3 : Word
  /-- `CV`, curve context valid (R31). -/
  cv : Bool
  /-- `CA` (R31). -/
  ca : FVal
  /-- `CB` (R31). -/
  cb : FVal
  /-- `DBUF[0..15]` (R32). -/
  dbuf : Vector Word 16
  /-- `NV`, NAF buffer valid (R33). -/
  nv : Bool
  /-- `NAFLEN`, bits 15:0 of `NAFINFO` (R33). -/
  nafLen : BitVec 16
  /-- `NAFW`, bits 23:16 of `NAFINFO` (R33). -/
  nafW : BitVec 8
  /-- `NAF[0..256]` (R33). -/
  naf : Vector Word 257
  /-- `TV`, table valid (R34). -/
  tv : Bool
  /-- `TW`, bits 7:0 of `TBLINFO` (R34). -/
  tw : BitVec 8
  /-- `TP`, the point the table was built from (R34). -/
  tp : PointReg
  /-- `TPOS[0..63]` (R34). -/
  tpos : Vector PointReg 64
  /-- `TNEG[0..63]` (R34). -/
  tneg : Vector PointReg 64
  /-- `FAULT`, sticky (R36). -/
  fault : Bool
  /-- `ERRCODE` (R36). -/
  errcode : BitVec 8
  /-- `FAULTCMD` (R36). -/
  faultcmd : Word
  /-- `CSEQ`, the command counter (R41). -/
  cseq : Word
  /-- MODEL: the host's accesses not yet performed, in program order (R70). -/
  pending : List HostAccess
  /-- MODEL: the values returned to the host's reads, oldest first (R61). -/
  replies : List Word
  /-- MODEL: how many reads of reserved offsets have drawn a free value (R66). -/
  draws : Nat
  deriving DecidableEq, Repr

/-- A zeroised point register. -/
def PointReg.zero : PointReg := ⟨0, 0⟩

/-- The state after reset (R50, R341): every valid bit 0, every register and buffer 0, storage zeroised; no access
pending, nothing returned to the host yet. -/
def State.reset : State where
  f := Vector.replicate 16 0
  fval := Vector.replicate 16 false
  p := Vector.replicate 8 PointReg.zero
  pval := Vector.replicate 8 false
  res := 0
  fv := false
  fldM := 0
  fldNk := 0
  fldK1 := 0
  fldK2 := 0
  fldK3 := 0
  cfgM := 0
  cfgNk := 0
  cfgK1 := 0
  cfgK2 := 0
  cfgK3 := 0
  cv := false
  ca := 0
  cb := 0
  dbuf := Vector.replicate 16 0
  nv := false
  nafLen := 0
  nafW := 0
  naf := Vector.replicate 257 0
  tv := false
  tw := 0
  tp := PointReg.zero
  tpos := Vector.replicate 64 PointReg.zero
  tneg := Vector.replicate 64 PointReg.zero
  fault := false
  errcode := 0
  faultcmd := 0
  cseq := 0
  pending := []
  replies := []
  draws := 0

/-! ### How a step can stop -/

/-- Why a step stops with a fault. An engine fault (R300) is not one of these: it is a next state. -/
inductive Fault where
  /-- Raised by the bus for an access at an offset of 0x1000 or above: no address of the window, so not the engine's
  (R60, R67, V6). Safe: the model stops where the platform would answer. -/
  | outsideWindow
  deriving DecidableEq, Repr

/-- Why a step is refused. -/
inductive Refusal where
  /-- Raised by `exec` for a command that has no meaning yet. Safe. No command is left so. -/
  | notModelled (mnemonic : String)
  /-- Raised by the bus for a sub-word, misaligned, 64-bit or burst access inside the window: "A model treats such an
  access as refused: it gives it no meaning" (R64). Safe: the model stops where the hardware answers with an error. -/
  | unsupportedAccess
  deriving DecidableEq, Repr

end Sys2Proof.Machine
end

