-- ==== Sys2Proof/Machine/FieldArith.lean ====
section
/-! DEFINITION. The field functions (rules R121 to R128) on non-negative integers read as bit-polynomials over GF(2),
for any field context. Every function is total: loops run on a bound that the rule's own loop never exceeds. -/

namespace Sys2Proof.Machine

/-- `blen(v)`: 0 for 0, else `1 + floor(log2 v)` (R10, R230). -/
def blen (v : Nat) : Nat := if v = 0 then 0 else Nat.log2 v + 1

/-- The partial carry-less product over the low `n` bits of `b` (R121). -/
def clmulLow (a b : Nat) : Nat → Nat
  | 0 => 0
  | n + 1 => clmulLow a b n ^^^ (if b.testBit n then a <<< n else 0)

/-- `clmul(a, b)`, the carry-less product: the XOR of `a << i` over the set bits `i` of `b` (R121). -/
def clmul (a b : Nat) : Nat := clmulLow a b (blen b)

/-- The reduction loop of R122, at most `n` passes. -/
def redLoop (K : FieldCtx) : Nat → Nat → Nat
  | 0, v => v
  | n + 1, v => if K.m < blen v then redLoop K n (v ^^^ (K.f <<< (blen v - 1 - K.m))) else v

/-- `red(v)`, reduction modulo `f` (R122). Each pass shortens `v`, so `blen v` passes suffice. -/
def red (K : FieldCtx) (v : Nat) : Nat := redLoop K (blen v) v

/-- `fmul(a, b)` (R123). -/
def fmul (K : FieldCtx) (a b : Nat) : Nat := red K (clmul a b)

/-- `fsqr(a)` (R124). -/
def fsqr (K : FieldCtx) (a : Nat) : Nat := fmul K a a

/-- Euclid's algorithm on the pairs `(u, g1)`, `(v, g2)` with `g1·a ≡ u` and `g2·a ≡ v (mod f)`, at most `n` steps: the
operand of higher degree is cut by a shifted copy of the other. The answer is the coefficient of the gcd 1, if the gcd
is 1. R151 leaves the procedure to the model: only the value of R125 is normative. -/
def invLoop : Nat → Nat → Nat → Nat → Nat → Option Nat
  | 0, _, _, _, _ => none
  | n + 1, u, v, g1, g2 =>
    if u = 0 then (if v = 1 then some g2 else none)
    else if v = 0 then (if u = 1 then some g1 else none)
    else if blen v ≤ blen u then
      invLoop n (u ^^^ (v <<< (blen u - blen v))) v (g1 ^^^ (g2 <<< (blen u - blen v))) g2
    else
      invLoop n u (v ^^^ (u <<< (blen v - blen u))) g1 (g2 ^^^ (g1 <<< (blen v - blen u)))

/-- `finv(a)` (R125): the `r < 2^m` with `fmul(red(a), r) = 1`, or `NoInverse` if there is none. The loop proposes the
only candidate; the rule's own equation decides. -/
def finv (K : FieldCtx) (a : Nat) : Except FaultCode Nat :=
  match invLoop (2 * K.m + 3) (red K a) K.f 1 0 with
  | none => .error .noInverse
  | some g => if fmul K (red K a) (red K g) = 1 then .ok (red K g) else .error .noInverse

/-- `n` steps `rv <- fsqr(rv) ^ a'` (R126). -/
def traceLoop (K : FieldCtx) (a' : Nat) : Nat → Nat → Nat
  | 0, rv => rv
  | n + 1, rv => traceLoop K a' n (fsqr K rv ^^^ a')

/-- `ftrace(a)`, the low bit of the trace sum (R126, conflict C1). -/
def ftrace (K : FieldCtx) (a : Nat) : Nat := traceLoop K (red K a) (K.m - 1) (red K a) % 2

/-- `n` steps `z <- fsqr(fsqr(z)) ^ a'` (R127). -/
def htrLoop (K : FieldCtx) (a' : Nat) : Nat → Nat → Nat
  | 0, z => z
  | n + 1, z => htrLoop K a' n (fsqr K (fsqr K z) ^^^ a')

/-- `fhtr(a)`, the half-trace (R127, conflict C2). -/
def fhtr (K : FieldCtx) (a : Nat) : Nat := htrLoop K (red K a) ((K.m - 1) / 2) (red K a)

/-- `fsolve(a)`, the half-trace root of `z² + z = a`, checked (R128). The degree test comes first. -/
def fsolve (K : FieldCtx) (a : Nat) : Except FaultCode Nat :=
  if K.m % 2 = 0 then .error .unsupported
  else if fsqr K (fhtr K (red K a)) ^^^ fhtr K (red K a) = red K a then .ok (fhtr K (red K a))
  else .error .noRoot

end Sys2Proof.Machine
end

