-- ==== Sys2Proof/Machine/PointArith.lean ====
section
/-! DEFINITION. The point functions (rules R171 to R179), for any curve context. -/

namespace Sys2Proof.Machine

/-- The identity, held as the pair `(0, 0)` (R27). -/
def Point.identity : Point := ⟨0, 0⟩

/-- `pisid` (R179). -/
def pisid (P : Point) : Bool := P.x == 0 && P.y == 0

/-- The point both formulas of R171 end in, once the slope `l` and the abscissa `xr` are known:
`yr = l·(xp + xr) + xr + yp`. -/
def slopePoint (K : FieldCtx) (l xr : Nat) (P : Point) : Point := ⟨xr, fmul K l (P.x ^^^ xr) ^^^ xr ^^^ P.y⟩

/-- The chord formula (R171, `xp ≠ xq`). -/
def chord (C : CurveCtx) (P Q : Point) : Except FaultCode Point := do
  let i ← finv C.fld (P.x ^^^ Q.x)
  let l := fmul C.fld (P.y ^^^ Q.y) i
  return slopePoint C.fld l (C.a ^^^ fsqr C.fld l ^^^ l ^^^ P.x ^^^ Q.x) P

/-- The tangent formula (R171, `P = Q`, `xp ≠ 0`). -/
def tangent (C : CurveCtx) (P : Point) : Except FaultCode Point := do
  let i ← finv C.fld P.x
  let l := P.x ^^^ fmul C.fld P.y i
  return slopePoint C.fld l (fsqr C.fld l ^^^ C.a ^^^ l) P

/-- `padd(P, Q)`, the group law, with its tests in the rule's order (R171). -/
def padd (C : CurveCtx) (P Q : Point) : Except FaultCode Point :=
  if pisid P then .ok Q
  else if pisid Q then .ok P
  else if P.x ≠ Q.x then chord C P Q
  else if P.y ≠ Q.y ∨ P.x = 0 then .ok Point.identity
  else tangent C P

/-- `pdbl(P) = padd(P, P)` (R172). -/
def pdbl (C : CurveCtx) (P : Point) : Except FaultCode Point := padd C P P

/-- `pneg((x, y)) = (x, x ^ y)` (R173). -/
def pneg (P : Point) : Point := ⟨P.x, P.x ^^^ P.y⟩

/-- `ptp2(P, e)`: `e` doublings (R174). -/
def ptp2 (C : CurveCtx) (P : Point) : Nat → Except FaultCode Point
  | 0 => .ok P
  | e + 1 => do
    let D ← pdbl C P
    ptp2 C D e

/-- `ptwp(R, Q) = padd(pdbl(R), Q)` (R175). -/
def ptwp (C : CurveCtx) (R Q : Point) : Except FaultCode Point := do
  let D ← pdbl C R
  padd C D Q

/-- `x` with bit 0 replaced by `t` (R176). -/
def withLowBit (x t : Nat) : Nat := x / 2 * 2 + t

/-- `pcompress(P)` (R176): 0 for the identity, else `x` with bit 0 replaced by the trace of `y/x`; `NoInverse` for a
point of order 2. -/
def pcompress (C : CurveCtx) (P : Point) : Except FaultCode Nat :=
  if pisid P then .ok 0
  else do
    let i ← finv C.fld P.x
    return withLowBit P.x (ftrace C.fld (fmul C.fld P.y i))

/-- The abscissa of a compressed value: bit 0 restored so that `ftrace(x) = ftrace(a)` (R177 note 3, conflict C3). -/
def expandX (C : CurveCtx) (c : Nat) : Nat :=
  if ftrace C.fld (withLowBit c 0) = ftrace C.fld C.a then withLowBit c 0 else withLowBit c 1

/-- The root of the two whose trace is the indicator bit `k` (R177 note 2, conflict C4). -/
def expandRoot (K : FieldCtx) (z k : Nat) : Nat := if ftrace K z = k then z else z ^^^ 1

/-- `pexpand` of a reduced non-zero value (R177). -/
def pexpandReduced (C : CurveCtx) (c : Nat) : Except FaultCode Point := do
  let x := expandX C c
  let xi ← finv C.fld x
  let z ← fsolve C.fld (x ^^^ C.a ^^^ fmul C.fld C.b (fsqr C.fld xi))
  return ⟨x, fmul C.fld (expandRoot C.fld z (c % 2)) x⟩

/-- `pexpand(c)` (R177): the identity for `c ≡ 0`. -/
def pexpand (C : CurveCtx) (c : Nat) : Except FaultCode Point :=
  if red C.fld c = 0 then .ok Point.identity else pexpandReduced C (red C.fld c)

/-- `pcontains(P)`, the curve equation (R178). -/
def pcontains (C : CurveCtx) (P : Point) : Bool :=
  fsqr C.fld P.y ^^^ fmul C.fld P.x P.y ==
    fmul C.fld (fsqr C.fld P.x) P.x ^^^ fmul C.fld C.a (fsqr C.fld P.x) ^^^ C.b

end Sys2Proof.Machine
end

