-- ==== Sys2Proof/Machine/WnafArith.lean ====
section
/-! DEFINITION. Window width, the packed NAF, the table and the scan (rules R211 to R220). -/

namespace Sys2Proof.Machine

/-- The bit-length thresholds of R211. -/
def wsizeCutoffs : List Nat := [13, 41, 121, 337, 897, 2305]

/-- `wsize(bits)`: 2 plus the number of thresholds reached (R211). -/
def wsize (bits : Nat) : Nat := 2 + (wsizeCutoffs.filter (fun c => decide (c ≤ bits))).length

/-- `wclamp(w) = max(2, min(16, w))` (R212). -/
def wclamp (w : Nat) : Nat := max 2 (min 16 w)

/-- The window width of a scalar (R218, R222). -/
def scalarWidth (k : Nat) : Nat := wclamp (wsize (blen k))

/-! ### The packed NAF word (R213) -/

/-- `pack(d, z)`: the digit in bits 31:16 as a 16-bit two's-complement number, the zeros in bits 15:0 (R213). -/
def pack (d : Int) (z : Nat) : Word := BitVec.ofInt 16 d ++ BitVec.ofNat 16 z

/-- `digit(e) = sext_16(e[31:16])` (R213). -/
def digitOf (e : Word) : Int := (e.extractLsb' 16 16).toInt

/-- `zeros(e) = e[15:0]` (R213). -/
def zerosOf (e : Word) : Nat := (e.extractLsb' 0 16).toNat

/-- The integer an array stands for, given the bit position below which its first entry's zeros start: R214's
`Σ d_i · 2^pos_i` with `pos_0 = z_0` and `pos_i = pos_(i-1) + 1 + z_i`. -/
def nafSum (base : Nat) : List Word → Int
  | [] => 0
  | e :: es => digitOf e * 2 ^ (base + zerosOf e) + nafSum (base + zerosOf e + 1) es

/-- The integer an array stands for (R214). -/
def nafValue (es : List Word) : Int := nafSum 0 es

/-! ### Recoding (R215, R216) -/

/-- The loop of `compactnaf` (R215): bits `i` to `high - 1` of `diff`, with the zeros and entries so far. -/
def compactLoop (k diff high : Nat) : Nat → Nat → Nat → List Word → List Word
  | 0, _, zeros, out => out ++ [pack 1 zeros]
  | n + 1, i, zeros, out =>
    if i < high then
      if diff.testBit i then
        compactLoop k diff high n (i + 2) 1 (out ++ [pack (if k.testBit i then -1 else 1) zeros])
      else compactLoop k diff high n (i + 1) (zeros + 1) out
    else out ++ [pack 1 zeros]

/-- `compactnaf(k)`, the width-2 recoding (R215). The loop runs at most `blen(3k)` times. -/
def compactNaf (k : Nat) : List Word :=
  if k = 0 then []
  else compactLoop k ((3 * k) ^^^ k) (blen (3 * k) - 1) (blen (3 * k)) 1 0 []

/-- One window of R216: the low `w` bits of the shifted scalar plus the carry. -/
def windowDigit (w k : Nat) (carry : Bool) : Nat := k % 2 ^ w + (if carry then 1 else 0)

/-- The loop of `windownaf` (R216), at most `n` passes: the shifted scalar, the carry, the position and the entries. -/
def windowLoop (w : Nat) : Nat → Nat → Bool → Nat → List Word → List Word
  | 0, _, _, _, out => out
  | n + 1, k, carry, pos, out =>
    if pos ≤ blen k then
      if k.testBit pos = carry then windowLoop w n k carry (pos + 1) out
      else
        let k' := k >>> pos
        let d := windowDigit w k' carry
        let carry' := d.testBit (w - 1)
        let digit : Int := if carry' then (d : Int) - 2 ^ w else d
        windowLoop w n k' carry' w (out ++ [pack digit (if out.isEmpty then pos else pos - 1)])
    else out

/-- `windownaf(w, k)`, `2 ≤ w ≤ 16` (R216). Every pass moves at least one bit up the scalar, so `blen k + 2` suffice. -/
def windowNaf (w k : Nat) : List Word :=
  if w = 2 then compactNaf k
  else if k = 0 then []
  else windowLoop w (blen k + 2) k false 0 []

/-! ### The table (R219) -/

/-- `n` further odd multiples after `T`, each the last plus `D` (R219). -/
def oddMultiples (C : CurveCtx) (D : Point) : Nat → Point → Except FaultCode (List Point)
  | 0, _ => .ok []
  | n + 1, T => do
    let T' ← padd C T D
    let Ts ← oddMultiples C D n T'
    return T' :: Ts

/-- The positive half of `precompute(P, w)`: `P, 3P, 5P, ...`, `2^(w-2)` points (R219). -/
def precomputePos (C : CurveCtx) (P : Point) (w : Nat) : Except FaultCode (List Point) :=
  if 2 ^ (w - 2) ≤ 1 then .ok [P]
  else do
    let D ← pdbl C P
    let Ts ← oddMultiples C D (2 ^ (w - 2) - 1) P
    return P :: Ts

/-- `precompute(P, w)`: the positive half and its negations (R219). -/
def precompute (C : CurveCtx) (P : Point) (w : Nat) : Except FaultCode (List Point × List Point) := do
  let T ← precomputePos C P w
  return (T, T.map pneg)

/-- The table entry for a digit: index `|d| >> 1` of the half its sign selects (R218, R219). The index is inside the
table for every digit R216 produces (R217), so the default is never read. -/
def tableEntry (T N : List Point) (d : Int) : Point :=
  (if d < 0 then N else T).getD (d.natAbs >>> 1) Point.identity

/-! ### The scan (R218) -/

/-- The top digit of an array of more than one entry, with the optimisation for a digit in the lower half of the
table (R218, DESIGN D22): the start value of the scan and the doublings left to do after it. -/
def topDigit (C : CurveCtx) (T N : List Point) (w : Nat) (e : Word) : Except FaultCode (Point × Nat) :=
  let n := (digitOf e).natAbs
  let tab := if digitOf e < 0 then N else T
  if 4 * n < 2 ^ w then do
    let scale := w - blen n
    let low := n ^^^ 2 ^ (blen n - 1)
    let i1 := 2 ^ (w - 1) - 1
    let i2 := (low <<< scale) + 1
    let R ← padd C (tab.getD (i1 >>> 1) Point.identity) (tab.getD (i2 >>> 1) Point.identity)
    return (R, zerosOf e - scale)
  else .ok (tab.getD (n >>> 1) Point.identity, zerosOf e)

/-- One remaining digit: `R <- ptwp(R, ±nP)`, then its zeros as doublings (R218). -/
def scanDigit (C : CurveCtx) (T N : List Point) (R : Point) (e : Word) : Except FaultCode Point := do
  let S ← ptwp C R (tableEntry T N (digitOf e))
  ptp2 C S (zerosOf e)

/-- The digits of a list, first to last. -/
def scanDigits (C : CurveCtx) (T N : List Point) : List Word → Point → Except FaultCode Point
  | [], R => .ok R
  | e :: es, R => do
    let S ← scanDigit C T N R e
    scanDigits C T N es S

/-- The scan of an array given from its top entry down (R218): the top digit apart if there is more than one. -/
def scan (C : CurveCtx) (T N : List Point) (w : Nat) : List Word → Except FaultCode Point
  | e :: e' :: es => do
    let top ← topDigit C T N w e
    let R ← ptp2 C top.1 top.2
    scanDigits C T N (e' :: es) R
  | es => scanDigits C T N es Point.identity

/-- `mulpos(P, k)` (R218): the result, and what it writes to the table and the NAF buffer. -/
def mulpos (C : CurveCtx) (P : Point) (k : Nat) : Except FaultCode ScanResult := do
  let w := scalarWidth k
  let tab ← precompute C P w
  let naf := windowNaf w k
  let R ← scan C tab.1 tab.2 w naf.reverse
  return ⟨R, w, tab.1, tab.2, naf⟩

end Sys2Proof.Machine
end

