-- ==== Sys2Proof/Machine/Ops.lean ====
section
/-! DEFINITION. The named operations on the state that every command shares: the contexts, the writes, the completion of
a command (R41), TAKING A FAULT (R310) and its only way back, reset (R317, R341). -/

namespace Sys2Proof.Machine

/-- The result of a command's own work: the state it leaves, or the fault it raises. -/
abbrev Attempt := Except FaultCode State

/-! ### Values and registers -/

/-- A point register read as a pair of integers. -/
def PointReg.val (r : PointReg) : Point := ⟨r.x.toNat, r.y.toNat⟩

/-- A point as register contents: both coordinates narrowed to 512 bits. -/
def Point.toReg (P : Point) : PointReg := ⟨BitVec.ofNat 512 P.x, BitVec.ofNat 512 P.y⟩

/-- The first entries of `v` replaced by the list, the others kept. -/
def overwrite {α : Type} {n : Nat} (v : Vector α n) (xs : List α) : Vector α n :=
  Vector.ofFn fun j => xs.getD j.val v[j]

/-! ### Contexts (R29, R31) -/

/-- The modulus `f = 2^M + 2^K1 (+ 2^K2 + 2^K3 if NK = 3) + 1` (R29). -/
def modulus (m nk k1 k2 k3 : Nat) : Nat := 2 ^ m + 2 ^ k1 + (if nk = 3 then 2 ^ k2 + 2 ^ k3 else 0) + 1

/-- `L = ceil(m / 32)` (R29). -/
def wordCount (m : Nat) : Nat := (m + 31) / 32

/-- The active field context. -/
def State.fieldCtx (s : State) : FieldCtx :=
  ⟨s.fldM.toNat, modulus s.fldM.toNat s.fldNk.toNat s.fldK1.toNat s.fldK2.toNat s.fldK3.toNat⟩

/-- The active curve context. -/
def State.curveCtx (s : State) : CurveCtx := ⟨s.fieldCtx, s.ca.toNat, s.cb.toNat⟩

/-- `L` of the active field context. -/
def State.fieldWords (s : State) : Nat := wordCount s.fldM.toNat

/-! ### Writes (each sets what its rule names and nothing else) -/

/-- `F[rd] <- v`, `FVAL[rd] <- 1` (R22). -/
def State.writeF (s : State) (rd : FReg) (v : FVal) : State :=
  { s with f := s.f.set rd v, fval := s.fval.set rd true }

/-- `P[rd] <- v`, `PVAL[rd] <- 1` (R25). -/
def State.writeP (s : State) (rd : PReg) (v : PointReg) : State :=
  { s with p := s.p.set rd v, pval := s.pval.set rd true }

/-- `RES <- v` (R28). -/
def State.writeRes (s : State) (v : Word) : State := { s with res := v }

/-- `DBUF[0..15] <- v` (R32). -/
def State.writeDbuf (s : State) (v : Vector Word 16) : State := { s with dbuf := v }

/-- The NAF buffer takes an array made with width `w`: `NV`, `NAFLEN`, `NAFW`, `NAF[]` (R33, R221). -/
def State.writeNaf (s : State) (w : Nat) (es : List Word) : State :=
  { s with nv := true, nafLen := BitVec.ofNat 16 es.length, nafW := BitVec.ofNat 8 w, naf := overwrite s.naf es }

/-- The table takes `precompute(P, w)`: `TV`, `TW`, `TP`, `TPOS[]`, `TNEG[]` (R34, R219). -/
def State.writeTable (s : State) (w : Nat) (P : PointReg) (T N : List Point) : State :=
  { s with
    tv := true
    tw := BitVec.ofNat 8 w
    tp := P
    tpos := overwrite s.tpos (T.map Point.toReg)
    tneg := overwrite s.tneg (N.map Point.toReg) }

/-- The field context is made: registers, curve, NAF buffer and table of the old one are dropped (R251). -/
def State.writeField (s : State) (m nk k1 k2 k3 : Word) : State :=
  { s with
    fldM := m
    fldNk := nk
    fldK1 := k1
    fldK2 := k2
    fldK3 := k3
    fv := true
    fval := Vector.replicate 16 false
    pval := Vector.replicate 8 false
    cv := false
    nv := false
    tv := false }

/-- The curve context is made: points and table of the old one are dropped (R252). -/
def State.writeCurve (s : State) (a b : FVal) : State :=
  { s with ca := a, cb := b, cv := true, pval := Vector.replicate 8 false, tv := false }

/-- `cseq <- cseq + 1`, modulo `2^32` (R41). -/
def State.countCommand (s : State) : State := { s with cseq := s.cseq + 1 }

/-- A value is returned to the host's read (R61). -/
def State.reply (s : State) (v : Word) : State := { s with replies := s.replies ++ [v] }

/-- A value is returned to a read of a reserved offset: a free draw (R66, log 3). -/
def State.replyFree (s : State) : State :=
  { s with replies := s.replies ++ [Config.reservedRead s.draws], draws := s.draws + 1 }

/-! ### Faults (R300 to R317) -/

/-- `ERRCODE` of a cause (R301). -/
def FaultCode.code : FaultCode → BitVec 8
  | .illegalCommand => 0x01
  | .noField => 0x02
  | .noCurve => 0x03
  | .uninit => 0x04
  | .badField => 0x05
  | .badCurve => 0x06
  | .noInverse => 0x07
  | .unsupported => 0x08
  | .noRoot => 0x09
  | .range => 0x0A
  | .noTable => 0x0B

/-- Fault entry (R310): `FAULT`, `ERRCODE` and `FAULTCMD` are set together; nothing else changes. There is no vector,
no handler and no mode to change. -/
def State.takeFault (s : State) (c : FaultCode) (w : Word) : State :=
  { s with fault := true, errcode := c.code, faultcmd := w }

/-- Reset, the only way out of the faulted state (R317, R341): the whole engine takes its reset state. The host's side
of the bus is not engine state and stays. -/
def State.resetEngine (s : State) : State :=
  { State.reset with pending := s.pending, replies := s.replies, draws := s.draws }

/-- How every command ends (R41, R310, R316): completed and counted, or faulted with nothing else changed. The word
recorded is the command's own, which the encoder gives back. -/
def finish (i : Instr) (s : State) (r : Attempt) : Host.Outcome State Fault Refusal :=
  match r with
  | .ok t => .next t.countCommand
  | .error c => .next (s.takeFault c (encode i))

end Sys2Proof.Machine
end

