-- ==== Sys2Proof/Machine/Operands.lean ====
section
/-! DEFINITION. What a command checks and reads before its own work, in the fixed order of R315: field context, curve
context, source registers (`ra` before `rb`), table, range (R120, R170, R210). -/

namespace Sys2Proof.Machine

/-- `NoField` unless `FV = 1` (R303). -/
def State.needField (s : State) : Except FaultCode Unit := if s.fv then .ok () else .error .noField

/-- `NoField`, then `NoCurve`, unless both contexts are valid (R170, R304). -/
def State.needCurve (s : State) : Except FaultCode Unit := do
  s.needField
  if s.cv then .ok () else .error .noCurve

/-- Read a field register: `Uninit` if it is not valid (R22, R305). -/
def State.readF (s : State) (i : FReg) : Except FaultCode FVal :=
  if s.fval[i] then .ok s.f[i] else .error .uninit

/-- Read a point register: `Uninit` if it is not valid (R25, R305). -/
def State.readP (s : State) (i : PReg) : Except FaultCode PointReg :=
  if s.pval[i] then .ok s.p[i] else .error .uninit

/-- `Range` unless the immediate is one the command admits (R313). -/
def needRange (ok : Bool) : Except FaultCode Unit := if ok then .ok () else .error .range

/-- `NoTable` unless `TV = 1` (R314). -/
def State.needTable (s : State) : Except FaultCode Unit := if s.tv then .ok () else .error .noTable

/-- One field source, after the field context (R120). -/
def State.fieldSource (s : State) (ra : FReg) : Except FaultCode FVal := do
  s.needField
  s.readF ra

/-- Two field sources, after the field context, `ra` first (R120). -/
def State.fieldSources (s : State) (ra rb : FReg) : Except FaultCode (FVal × FVal) := do
  s.needField
  let a ← s.readF ra
  let b ← s.readF rb
  return (a, b)

/-- One point source, after both contexts (R170). -/
def State.pointSource (s : State) (ra : PReg) : Except FaultCode PointReg := do
  s.needCurve
  s.readP ra

/-- Two point sources, after both contexts, `ra` first (R170). -/
def State.pointSources (s : State) (ra rb : PReg) : Except FaultCode (PointReg × PointReg) := do
  s.needCurve
  let a ← s.readP ra
  let b ← s.readP rb
  return (a, b)

/-- One field source, after both contexts (R170). -/
def State.curveFieldSource (s : State) (ra : FReg) : Except FaultCode FVal := do
  s.needCurve
  s.readF ra

/-- Two field sources, after both contexts, `ra` first (R170). -/
def State.curveFieldSources (s : State) (ra rb : FReg) : Except FaultCode (FVal × FVal) := do
  s.needCurve
  let a ← s.readF ra
  let b ← s.readF rb
  return (a, b)

/-- A point source `ra`, then a scalar source `rb`, after both contexts (R170). -/
def State.scalarSources (s : State) (ra : PReg) (rb : FReg) : Except FaultCode (PointReg × FVal) := do
  s.needCurve
  let a ← s.readP ra
  let k ← s.readF rb
  return (a, k)

/-! ### The data buffer as a value (R32, R130, R131) -/

/-- `Σ DBUF[j] << 32j` over `j < n` (R130). -/
def dbufValue (d : Vector Word 16) : Nat → Nat
  | 0 => 0
  | n + 1 => dbufValue d n + ((d.toList.getD n 0).toNat <<< (32 * n))

/-- The 16 words of a register value, word 0 least significant (R63, R131). -/
def valueWords (v : FVal) : Vector Word 16 := Vector.ofFn fun j => v.extractLsb' (32 * j.val) 32

end Sys2Proof.Machine
end

