-- ==== Sys2Proof/Machine/Flags.lean ====
section
/-! DEFINITION. The values of `RES`, the engine's only flag-like state (R28): small non-negative integers zero-extended to
32 bits (R149). There are no carry, zero, sign or overflow flags. -/

namespace Sys2Proof.Machine

/-- A predicate's result: 1 or 0. -/
def resOfBool (b : Bool) : Word := if b then 1 else 0

/-- A small integer's result, zero-extended. -/
def resOfNat (n : Nat) : Word := BitVec.ofNat 32 n

/-- `FTSTB`: bit `i` of the register, 0 at or above 512 (R141). -/
def testBitRes (v : FVal) (i : Nat) : Word := resOfBool (v.getLsbD i)

/-- `FLESS`: the bit length of `a` is below that of `b` (R148). -/
def lessRes (a b : FVal) : Word := resOfBool (decide (blen a.toNat < blen b.toNat))

/-- `PEQ`: both coordinates agree (R189). -/
def pointEqRes (P Q : PointReg) : Word := resOfBool (P.x == Q.x && P.y == Q.y)

end Sys2Proof.Machine
end

