-- ==== Sys2Proof/Machine/Field.lean ====
section
/-! DEFINITION. The field family (rules R130 to R148). Raw commands act on the register as it stands; field commands
reduce their operands first and write reduced results (R129). -/

namespace Sys2Proof.Machine

/-! ### Data movement -/

/-- `FLOAD Fd` (R130): words `0..L-1` of `DBUF`. -/
def execFload (rd : FReg) (s : State) : Host.Outcome State Fault Refusal :=
  finish (.fload rd) s (do
    s.needField
    return s.writeF rd (BitVec.ofNat 512 (dbufValue s.dbuf s.fieldWords)))

/-- `FSTORE Fa` (R131): all 16 words of `DBUF`. -/
def execFstore (ra : FReg) (s : State) : Host.Outcome State Fault Refusal :=
  finish (.fstore ra) s (do
    let a ← s.fieldSource ra
    return s.writeDbuf (valueWords a))

/-- `FLDI Fd, imm12` (R132): the immediate, not reduced. -/
def execFldi (rd : FReg) (imm : Nat) (s : State) : Host.Outcome State Fault Refusal :=
  finish (.fldi rd imm) s (do
    s.needField
    return s.writeF rd (BitVec.ofNat 512 imm))

/-- `FMOV Fd, Fa` (R133): a raw copy. -/
def execFmov (rd ra : FReg) (s : State) : Host.Outcome State Fault Refusal :=
  finish (.fmov rd ra) s (do
    let a ← s.fieldSource ra
    return s.writeF rd a)

/-! ### Arithmetic -/

/-- `FADD Fd, Fa, Fb` (R134): bitwise XOR, raw. -/
def execFadd (rd ra rb : FReg) (s : State) : Host.Outcome State Fault Refusal :=
  finish (.fadd rd ra rb) s (do
    let (a, b) ← s.fieldSources ra rb
    return s.writeF rd (a ^^^ b))

/-- `FMUL Fd, Fa, Fb` (R135): `fmul`. -/
def execFmul (rd ra rb : FReg) (s : State) : Host.Outcome State Fault Refusal :=
  finish (.fmul rd ra rb) s (do
    let (a, b) ← s.fieldSources ra rb
    return s.writeF rd (BitVec.ofNat 512 (fmul s.fieldCtx a.toNat b.toNat)))

/-- `FSQR Fd, Fa` (R136): `fsqr`. -/
def execFsqr (rd ra : FReg) (s : State) : Host.Outcome State Fault Refusal :=
  finish (.fsqr rd ra) s (do
    let a ← s.fieldSource ra
    return s.writeF rd (BitVec.ofNat 512 (fsqr s.fieldCtx a.toNat)))

/-- `FRED Fd, Fa` (R137): `red`. -/
def execFred (rd ra : FReg) (s : State) : Host.Outcome State Fault Refusal :=
  finish (.fred rd ra) s (do
    let a ← s.fieldSource ra
    return s.writeF rd (BitVec.ofNat 512 (red s.fieldCtx a.toNat)))

/-- `FINV Fd, Fa` (R138): `finv`, which raises `NoInverse`. -/
def execFinv (rd ra : FReg) (s : State) : Host.Outcome State Fault Refusal :=
  finish (.finv rd ra) s (do
    let a ← s.fieldSource ra
    let r ← finv s.fieldCtx a.toNat
    return s.writeF rd (BitVec.ofNat 512 r))

/-- `FTRACE Fa` (R139): `RES` is the trace. -/
def execFtrace (ra : FReg) (s : State) : Host.Outcome State Fault Refusal :=
  finish (.ftrace ra) s (do
    let a ← s.fieldSource ra
    return s.writeRes (resOfNat (ftrace s.fieldCtx a.toNat)))

/-- `FSOLVE Fd, Fa` (R140): `fsolve`, which raises `Unsupported` and `NoRoot`. -/
def execFsolve (rd ra : FReg) (s : State) : Host.Outcome State Fault Refusal :=
  finish (.fsolve rd ra) s (do
    let a ← s.fieldSource ra
    let z ← fsolve s.fieldCtx a.toNat
    return s.writeF rd (BitVec.ofNat 512 z))

/-! ### Bit-level primitives -/

/-- `FTSTB Fa, imm12` (R141): one bit, 0 at or above 512. -/
def execFtstb (ra : FReg) (imm : Nat) (s : State) : Host.Outcome State Fault Refusal :=
  finish (.ftstb ra imm) s (do
    let a ← s.fieldSource ra
    return s.writeRes (testBitRes a imm))

/-- `FSETB Fd, Fa, imm12` (R142): `Range` at or above `32·L`. -/
def execFsetb (rd ra : FReg) (imm : Nat) (s : State) : Host.Outcome State Fault Refusal :=
  finish (.fsetb rd ra imm) s (do
    let a ← s.fieldSource ra
    needRange (decide (imm < 32 * s.fieldWords))
    return s.writeF rd (a ||| BitVec.ofNat 512 (2 ^ imm)))

/-- `FCLRB Fd, Fa, imm12` (R143): an index at or above 512 changes nothing. -/
def execFclrb (rd ra : FReg) (imm : Nat) (s : State) : Host.Outcome State Fault Refusal :=
  finish (.fclrb rd ra imm) s (do
    let a ← s.fieldSource ra
    return s.writeF rd (a &&& ~~~(BitVec.ofNat 512 (2 ^ imm))))

/-- `FBLEN Fa` (R144): the bit length of the raw value. -/
def execFblen (ra : FReg) (s : State) : Host.Outcome State Fault Refusal :=
  finish (.fblen ra) s (do
    let a ← s.fieldSource ra
    return s.writeRes (resOfNat (blen a.toNat)))

/-- `FSHR Fd, Fa, imm12` (R145): logical right shift; 0 at or above 512. -/
def execFshr (rd ra : FReg) (imm : Nat) (s : State) : Host.Outcome State Fault Refusal :=
  finish (.fshr rd ra imm) s (do
    let a ← s.fieldSource ra
    return s.writeF rd (a >>> imm))

/-! ### Comparisons -/

/-- `FEQ Fa, Fb` (R146): equality of the 512-bit values. -/
def execFeq (ra rb : FReg) (s : State) : Host.Outcome State Fault Refusal :=
  finish (.feq ra rb) s (do
    let (a, b) ← s.fieldSources ra rb
    return s.writeRes (resOfBool (a == b)))

/-- `FISZ Fa` (R147): the raw value is 0. -/
def execFisz (ra : FReg) (s : State) : Host.Outcome State Fault Refusal :=
  finish (.fisz ra) s (do
    let a ← s.fieldSource ra
    return s.writeRes (resOfBool (a == 0)))

/-- `FLESS Fa, Fb` (R148): bit lengths compared. -/
def execFless (ra rb : FReg) (s : State) : Host.Outcome State Fault Refusal :=
  finish (.fless ra rb) s (do
    let (a, b) ← s.fieldSources ra rb
    return s.writeRes (lessRes a b))

end Sys2Proof.Machine
end

