-- ==== Sys2Proof/Machine/Point.lean ====
section
/-! DEFINITION. The point family (rules R180 to R192). Both contexts are needed; no command but `PCHK` checks that a point
is on the curve (R170). -/

namespace Sys2Proof.Machine

/-! ### Moving points -/

/-- `PSET Pd, Fa, Fb` (R180): both coordinates reduced, curve membership not checked. -/
def execPset (rd : PReg) (ra rb : FReg) (s : State) : Host.Outcome State Fault Refusal :=
  finish (.pset rd ra rb) s (do
    let (x, y) ← s.curveFieldSources ra rb
    return s.writeP rd (Point.toReg ⟨red s.fieldCtx x.toNat, red s.fieldCtx y.toNat⟩))

/-- `PGETX Fd, Pa` (R181). -/
def execPgetx (rd : FReg) (ra : PReg) (s : State) : Host.Outcome State Fault Refusal :=
  finish (.pgetx rd ra) s (do
    let P ← s.pointSource ra
    return s.writeF rd P.x)

/-- `PGETY Fd, Pa` (R182). -/
def execPgety (rd : FReg) (ra : PReg) (s : State) : Host.Outcome State Fault Refusal :=
  finish (.pgety rd ra) s (do
    let P ← s.pointSource ra
    return s.writeF rd P.y)

/-- `PMOV Pd, Pa` (R183). -/
def execPmov (rd ra : PReg) (s : State) : Host.Outcome State Fault Refusal :=
  finish (.pmov rd ra) s (do
    let P ← s.pointSource ra
    return s.writeP rd P)

/-! ### The group law -/

/-- `PADD Pd, Pa, Pb` (R184): `padd`. -/
def execPadd (rd ra rb : PReg) (s : State) : Host.Outcome State Fault Refusal :=
  finish (.padd rd ra rb) s (do
    let (P, Q) ← s.pointSources ra rb
    let R ← padd s.curveCtx P.val Q.val
    return s.writeP rd R.toReg)

/-- `PDBL Pd, Pa` (R185): `pdbl`. -/
def execPdbl (rd ra : PReg) (s : State) : Host.Outcome State Fault Refusal :=
  finish (.pdbl rd ra) s (do
    let P ← s.pointSource ra
    let R ← pdbl s.curveCtx P.val
    return s.writeP rd R.toReg)

/-- `PNEG Pd, Pa` (R186): `pneg`. -/
def execPneg (rd ra : PReg) (s : State) : Host.Outcome State Fault Refusal :=
  finish (.pneg rd ra) s (do
    let P ← s.pointSource ra
    return s.writeP rd (pneg P.val).toReg)

/-! ### Compression -/

/-- `PCMP Fd, Pa` (R187): `pcompress`. -/
def execPcmp (rd : FReg) (ra : PReg) (s : State) : Host.Outcome State Fault Refusal :=
  finish (.pcmp rd ra) s (do
    let P ← s.pointSource ra
    let c ← pcompress s.curveCtx P.val
    return s.writeF rd (BitVec.ofNat 512 c))

/-- `PEXP Pd, Fa` (R188): `pexpand`. -/
def execPexp (rd : PReg) (ra : FReg) (s : State) : Host.Outcome State Fault Refusal :=
  finish (.pexp rd ra) s (do
    let c ← s.curveFieldSource ra
    let R ← pexpand s.curveCtx c.toNat
    return s.writeP rd R.toReg)

/-! ### Predicates -/

/-- `PEQ Pa, Pb` (R189): coordinate-wise equality. -/
def execPeq (ra rb : PReg) (s : State) : Host.Outcome State Fault Refusal :=
  finish (.peq ra rb) s (do
    let (P, Q) ← s.pointSources ra rb
    return s.writeRes (pointEqRes P Q))

/-- `PISID Pa` (R190): the identity test. -/
def execPisid (ra : PReg) (s : State) : Host.Outcome State Fault Refusal :=
  finish (.pisid ra) s (do
    let P ← s.pointSource ra
    return s.writeRes (resOfBool (pisid P.val)))

/-- `PCHK Pa` (R191): the curve equation; a failed check is a result, not a fault. -/
def execPchk (ra : PReg) (s : State) : Host.Outcome State Fault Refusal :=
  finish (.pchk ra) s (do
    let P ← s.pointSource ra
    return s.writeRes (resOfBool (pcontains s.curveCtx P.val)))

/-! ### Scalar multiplication -/

/-- The writes of a scan: table, NAF buffer, destination (R218, R226). `P` is the point the table is built from. -/
def State.writeScan (s : State) (rd : PReg) (P : PointReg) (r : ScanResult) : State :=
  ((s.writeTable r.width P r.tpos r.tneg).writeNaf r.width r.naf).writeP rd r.point.toReg

/-- The operand `PMUL` multiplies: `-P` with `NEG` (R192). -/
def signedPoint (neg : Bool) (P : PointReg) : PointReg := if neg then (pneg P.val).toReg else P

/-- `PMUL Pd, Pa, Fb [, NEG]` (R192): the identity for `k = 0`, touching neither table nor NAF buffer; else the scan. -/
def execPmul (rd ra : PReg) (rb : FReg) (neg : Bool) (s : State) : Host.Outcome State Fault Refusal :=
  finish (.pmul rd ra rb neg) s (do
    let (P, k) ← s.scalarSources ra rb
    if k.toNat = 0 then
      return s.writeP rd Point.identity.toReg
    else
      let r ← mulpos s.curveCtx (signedPoint neg P).val k.toNat
      return s.writeScan rd (signedPoint neg P) r)

end Sys2Proof.Machine
end

