-- ==== Sys2Proof/Machine/Scalar.lean ====
section
/-! DEFINITION. The scalar-multiplier family (rules R221 to R228). -/

namespace Sys2Proof.Machine

/-- `WSIZE Fa` (R222): the window width of a scalar; a field context is needed, no curve. -/
def execWsize (ra : FReg) (s : State) : Host.Outcome State Fault Refusal :=
  finish (.wsize ra) s (do
    let a ← s.fieldSource ra
    return s.writeRes (resOfNat (scalarWidth a.toNat)))

/-- `WSIZEI imm12` (R223): the window width of a bit length; no context is needed. -/
def execWsizei (imm : Nat) (s : State) : Host.Outcome State Fault Refusal :=
  finish (.wsizei imm) s (.ok (s.writeRes (resOfNat (wclamp (wsize imm)))))

/-- `WNAF Fa, imm12` (R221): recodes a scalar into the NAF buffer; `Range` outside 2 to 16. -/
def execWnaf (ra : FReg) (imm : Nat) (s : State) : Host.Outcome State Fault Refusal :=
  finish (.wnaf ra imm) s (do
    let a ← s.fieldSource ra
    needRange (decide (2 ≤ imm ∧ imm ≤ 16))
    return s.writeNaf imm (windowNaf imm a.toNat))

/-- `PRECOMP Pa, imm12` (R224): builds the table; `Range` outside 2 to `WMAX`. -/
def execPrecomp (ra : PReg) (imm : Nat) (s : State) : Host.Outcome State Fault Refusal :=
  finish (.precomp ra imm) s (do
    let P ← s.pointSource ra
    needRange (decide (2 ≤ imm ∧ imm ≤ Config.wmax))
    let tab ← precompute s.curveCtx P.val imm
    return s.writeTable imm P tab.1 tab.2)

/-- The entry `TBLRD` reads (R225). -/
def State.tableReg (s : State) (neg : Bool) (idx : Fin 64) : PointReg := if neg then s.tneg[idx] else s.tpos[idx]

/-- `TBLRD Pd, idx [, NEG]` (R225): `NoTable`, then `Range` at or above `2^(TW-2)`. -/
def execTblrd (rd : PReg) (neg : Bool) (idx : Fin 64) (s : State) : Host.Outcome State Fault Refusal :=
  finish (.tblrd rd neg idx) s (do
    s.needCurve
    s.needTable
    needRange (decide (idx.val < 2 ^ (s.tw.toNat - 2)))
    return s.writeP rd (s.tableReg neg idx))

/-- `MULPOS Pd, Pa, Fb` (R226): the scan, always, also for `k = 0`. -/
def execMulpos (rd ra : PReg) (rb : FReg) (s : State) : Host.Outcome State Fault Refusal :=
  finish (.mulpos rd ra rb) s (do
    let (P, k) ← s.scalarSources ra rb
    let r ← mulpos s.curveCtx P.val k.toNat
    return s.writeScan rd P r)

/-- `PTWP Pd, Pa, Pb` (R227): `ptwp`. -/
def execPtwp (rd ra rb : PReg) (s : State) : Host.Outcome State Fault Refusal :=
  finish (.ptwp rd ra rb) s (do
    let (P, Q) ← s.pointSources ra rb
    let R ← ptwp s.curveCtx P.val Q.val
    return s.writeP rd R.toReg)

/-- `PTP2 Pd, Pa, imm12` (R228): `imm12` doublings. -/
def execPtp2 (rd ra : PReg) (imm : Nat) (s : State) : Host.Outcome State Fault Refusal :=
  finish (.ptp2 rd ra imm) s (do
    let P ← s.pointSource ra
    let R ← ptp2 s.curveCtx P.val imm
    return s.writeP rd R.toReg)

end Sys2Proof.Machine
end

