-- ==== Sys2Proof/Machine/System.lean ====
section
/-! DEFINITION. The system family: `NOP`, `SETFIELD`, `SETCURVE` (rules R251 to R253). -/

namespace Sys2Proof.Machine

/-- `NOP` (R253): only `CSEQ` moves; no context is needed. -/
def execNop (s : State) : Host.Outcome State Fault Refusal := finish .nop s (.ok s)

/-- The staged values form a trinomial or pentanomial inside the bounds (R251). The full 32-bit values count. -/
def admissibleField (m nk k1 k2 k3 : Nat) : Bool :=
  decide (Config.mMin ≤ m ∧ m ≤ Config.mMax) &&
    (if nk = 1 then decide (0 < k1 ∧ k1 < m)
     else if nk = 3 then decide (k1 < m ∧ k2 < k1 ∧ k3 < k2 ∧ 0 < k3)
     else false)

/-- The middle exponent kept for a pentanomial; a trinomial stores 0 for `K2` and `K3` (R251). -/
def keptExponent (nk k : Word) : Word := if nk = 1 then 0 else k

/-- `SETFIELD` (R251): the staging registers become the field context, or `BadField`. -/
def execSetfield (s : State) : Host.Outcome State Fault Refusal :=
  finish .setfield s
    (if admissibleField s.cfgM.toNat s.cfgNk.toNat s.cfgK1.toNat s.cfgK2.toNat s.cfgK3.toNat then
      .ok (s.writeField s.cfgM s.cfgNk s.cfgK1 (keptExponent s.cfgNk s.cfgK2) (keptExponent s.cfgNk s.cfgK3))
    else .error .badField)

/-- `SETCURVE Fa, Fb` (R252): both coefficients reduced; `BadCurve` if `b ≡ 0`. -/
def execSetcurve (ra rb : FReg) (s : State) : Host.Outcome State Fault Refusal :=
  finish (.setcurve ra rb) s (do
    let (a, b) ← s.fieldSources ra rb
    if red s.fieldCtx b.toNat = 0 then .error .badCurve
    else .ok (s.writeCurve (BitVec.ofNat 512 (red s.fieldCtx a.toNat)) (BitVec.ofNat 512 (red s.fieldCtx b.toNat))))

end Sys2Proof.Machine
end

