-- ==== Sys2Proof/Machine/Dispatch.lean ====
section
/-! DEFINITION. One arm per command: `exec` hands each to its meaning (R91, R95). -/

namespace Sys2Proof.Machine

/-- The execution of a decoded command (R38). -/
def exec (i : Instr) (s : State) : Host.Outcome State Fault Refusal :=
  match i with
  | .nop => Sys2Proof.Machine.execNop s
  | .setfield => Sys2Proof.Machine.execSetfield s
  | .setcurve ra rb => Sys2Proof.Machine.execSetcurve ra rb s
  | .fload rd => Sys2Proof.Machine.execFload rd s
  | .fstore ra => Sys2Proof.Machine.execFstore ra s
  | .fldi rd imm => Sys2Proof.Machine.execFldi rd imm s
  | .fmov rd ra => Sys2Proof.Machine.execFmov rd ra s
  | .fadd rd ra rb => Sys2Proof.Machine.execFadd rd ra rb s
  | .fmul rd ra rb => Sys2Proof.Machine.execFmul rd ra rb s
  | .fsqr rd ra => Sys2Proof.Machine.execFsqr rd ra s
  | .fred rd ra => Sys2Proof.Machine.execFred rd ra s
  | .finv rd ra => Sys2Proof.Machine.execFinv rd ra s
  | .ftrace ra => Sys2Proof.Machine.execFtrace ra s
  | .fsolve rd ra => Sys2Proof.Machine.execFsolve rd ra s
  | .ftstb ra imm => Sys2Proof.Machine.execFtstb ra imm s
  | .fsetb rd ra imm => Sys2Proof.Machine.execFsetb rd ra imm s
  | .fclrb rd ra imm => Sys2Proof.Machine.execFclrb rd ra imm s
  | .fblen ra => Sys2Proof.Machine.execFblen ra s
  | .fshr rd ra imm => Sys2Proof.Machine.execFshr rd ra imm s
  | .feq ra rb => Sys2Proof.Machine.execFeq ra rb s
  | .fisz ra => Sys2Proof.Machine.execFisz ra s
  | .fless ra rb => Sys2Proof.Machine.execFless ra rb s
  | .pset rd ra rb => Sys2Proof.Machine.execPset rd ra rb s
  | .pgetx rd ra => Sys2Proof.Machine.execPgetx rd ra s
  | .pgety rd ra => Sys2Proof.Machine.execPgety rd ra s
  | .pmov rd ra => Sys2Proof.Machine.execPmov rd ra s
  | .padd rd ra rb => Sys2Proof.Machine.execPadd rd ra rb s
  | .pdbl rd ra => Sys2Proof.Machine.execPdbl rd ra s
  | .pneg rd ra => Sys2Proof.Machine.execPneg rd ra s
  | .pcmp rd ra => Sys2Proof.Machine.execPcmp rd ra s
  | .pexp rd ra => Sys2Proof.Machine.execPexp rd ra s
  | .peq ra rb => Sys2Proof.Machine.execPeq ra rb s
  | .pisid ra => Sys2Proof.Machine.execPisid ra s
  | .pchk ra => Sys2Proof.Machine.execPchk ra s
  | .pmul rd ra rb neg => Sys2Proof.Machine.execPmul rd ra rb neg s
  | .wsize ra => Sys2Proof.Machine.execWsize ra s
  | .wsizei imm => Sys2Proof.Machine.execWsizei imm s
  | .wnaf ra imm => Sys2Proof.Machine.execWnaf ra imm s
  | .precomp ra imm => Sys2Proof.Machine.execPrecomp ra imm s
  | .tblrd rd neg idx => Sys2Proof.Machine.execTblrd rd neg idx s
  | .mulpos rd ra rb => Sys2Proof.Machine.execMulpos rd ra rb s
  | .ptwp rd ra rb => Sys2Proof.Machine.execPtwp rd ra rb s
  | .ptp2 rd ra imm => Sys2Proof.Machine.execPtp2 rd ra imm s

end Sys2Proof.Machine
end

