-- ==== Sys2Proof/Machine/Window.lean ====
section
/-! DEFINITION. The register window (rules R35 to R45, R60 to R68): which offset is which register, what a read of a register
returns, and the byte view of a word. Reads have no side effects (R65). -/

namespace Sys2Proof.Machine

/-- The registers of the window (R62). -/
inductive WindowReg where
  | id | version | param0 | param1 | ctrl | status | cmd | res | faultcmd | cseq | nafinfo | tblinfo
  | cfgM | cfgNk | cfgK1 | cfgK2 | cfgK3
  | fldM | fldNk | fldK1 | fldK2 | fldK3 | fldL
  | dbuf (j : Fin 16)
  | naf (j : Fin 257)
  deriving DecidableEq, Repr

/-- The registers with an offset of their own (R62). -/
def fixedOffsets : List (Nat × WindowReg) :=
  [ (0x000, .id), (0x004, .version), (0x008, .param0), (0x00C, .param1), (0x010, .ctrl), (0x014, .status),
    (0x018, .cmd), (0x01C, .res), (0x020, .faultcmd), (0x024, .cseq), (0x028, .nafinfo), (0x02C, .tblinfo),
    (0x030, .cfgM), (0x034, .cfgNk), (0x038, .cfgK1), (0x03C, .cfgK2), (0x040, .cfgK3),
    (0x050, .fldM), (0x054, .fldNk), (0x058, .fldK1), (0x05C, .fldK2), (0x060, .fldK3), (0x064, .fldL) ]

/-- The offset of `CMD` (R38). -/
def cmdOffset : Nat := 0x018

/-- The offset of `CTRL` (R37). -/
def ctrlOffset : Nat := 0x010

/-- The register at an aligned offset; `none` for a reserved offset (R62, R66). -/
def windowReg (off : Nat) : Option WindowReg :=
  if 0x100 ≤ off ∧ off < 0x140 then some (.dbuf (Fin.ofNat 16 ((off - 0x100) / 4)))
  else if 0x400 ≤ off ∧ off ≤ 0x800 then some (.naf (Fin.ofNat 257 ((off - 0x400) / 4)))
  else fixedOffsets.lookup off

/-- The offset of a window register at the host's bus address, for a window at `base`; `none` outside the window, which
is not the engine's (R60, R67). `BASE` is a parameter no rule depends on (log 4). -/
def busOffset (base addr : Nat) : Option Nat :=
  if base ≤ addr ∧ addr < base + Config.windowBytes then some (addr - base) else none

/-- A value that reads 0 while its valid bit is 0. -/
def gated (valid : Bool) (v : Word) : Word := if valid then v else 0

/-- `STATUS` (R35): `FAULT`, `FV`, `CV`, `NV`, `TV` in bits 0 to 4, `ERRCODE` in bits 15:8, every other bit 0. -/
def State.status (s : State) : Word :=
  (0#16 ++ s.errcode ++ 0#3 ++ BitVec.ofBool s.tv ++ BitVec.ofBool s.nv ++ BitVec.ofBool s.cv ++ BitVec.ofBool s.fv ++
    BitVec.ofBool s.fault : BitVec 32)

/-- `NAFINFO` (R33): `NAFW` in bits 23:16, `NAFLEN` in bits 15:0; 0 while `NV = 0`. -/
def State.nafInfo (s : State) : Word := gated s.nv (0#8 ++ s.nafW ++ s.nafLen : BitVec 32)

/-- `TBLINFO` (R34): `2^(TW-2)` in bits 23:8, `TW` in bits 7:0; 0 while `TV = 0`. -/
def State.tblInfo (s : State) : Word := gated s.tv (0#8 ++ BitVec.ofNat 16 (2 ^ (s.tw.toNat - 2)) ++ s.tw : BitVec 32)

/-- `NAF[j]` as the host reads it: 0 while `NV = 0` and at or above `NAFLEN` (R33). -/
def State.nafEntry (s : State) (j : Fin 257) : Word := gated (s.nv && decide (j.val < s.nafLen.toNat)) s.naf[j]

/-- What a read of a register returns (R62; the constants are R43's). -/
def State.readReg (s : State) : WindowReg → Word
  | .id => 0x4746324D
  | .version => 0x00010000
  | .param0 => 0x08081010
  | .param1 => 0x00400101
  | .ctrl => 0
  | .status => s.status
  | .cmd => 0
  | .res => s.res
  | .faultcmd => s.faultcmd
  | .cseq => s.cseq
  | .nafinfo => s.nafInfo
  | .tblinfo => s.tblInfo
  | .cfgM => s.cfgM
  | .cfgNk => s.cfgNk
  | .cfgK1 => s.cfgK1
  | .cfgK2 => s.cfgK2
  | .cfgK3 => s.cfgK3
  | .fldM => gated s.fv s.fldM
  | .fldNk => gated s.fv s.fldNk
  | .fldK1 => gated s.fv s.fldK1
  | .fldK2 => gated s.fv s.fldK2
  | .fldK3 => gated s.fv s.fldK3
  | .fldL => gated s.fv (BitVec.ofNat 32 s.fieldWords)
  | .dbuf j => s.dbuf[j]
  | .naf j => s.nafEntry j

/-- Byte `i` of a word: bits `8i+7 : 8i`, little-endian (R63). -/
def wordByte (w : Word) (i : Nat) : Byte := w.extractLsb' (8 * i) 8

/-- The byte view of the window at a byte offset; `none` at a reserved offset (R63). No access is that narrow (R64): the
view matters to a host that builds images of the window. -/
def State.windowByte (s : State) (off : Nat) : Option Byte :=
  (windowReg (off / 4 * 4)).map fun r => wordByte (s.readReg r) (off % 4)

end Sys2Proof.Machine
end

