-- ==== Sys2Proof/Machine/Bus.lean ====
section
/-! DEFINITION. The host's accesses (rules R13, R37, R38, R61 to R66, R312, R340): what one action of the host does to the
engine. Accesses take effect one at a time, completely, in the order the host issues them (R70). -/

namespace Sys2Proof.Machine

/-- A write to `CMD` (R38, R91, R312): dropped while `FAULT = 1`, without decoding; else the word is decoded and its
command executed, an illegal word raising `IllegalCommand` (R96, R302). -/
def issueCommand (w : Word) (s : State) : Host.Outcome State Fault Refusal :=
  if s.fault then .next s
  else match decode w with
    | .ok i => exec i s
    | .error _ => .next (s.takeFault .illegalCommand w)

/-- A write to a register of the window (R62, R65): `CMD` executes, `CTRL` bit 0 resets (R37), the staging registers and
`DBUF` store, a read-only register ignores the write. -/
def writeReg (r : WindowReg) (v : Word) (s : State) : Host.Outcome State Fault Refusal :=
  match r with
  | .cmd => issueCommand v s
  | .ctrl => .next (if v.getLsbD 0 then s.resetEngine else s)
  | .cfgM => .next { s with cfgM := v }
  | .cfgNk => .next { s with cfgNk := v }
  | .cfgK1 => .next { s with cfgK1 := v }
  | .cfgK2 => .next { s with cfgK2 := v }
  | .cfgK3 => .next { s with cfgK3 := v }
  | .dbuf j => .next { s with dbuf := s.dbuf.set j v }
  | .id => .next s
  | .version => .next s
  | .param0 => .next s
  | .param1 => .next s
  | .status => .next s
  | .res => .next s
  | .faultcmd => .next s
  | .cseq => .next s
  | .nafinfo => .next s
  | .tblinfo => .next s
  | .fldM => .next s
  | .fldNk => .next s
  | .fldK1 => .next s
  | .fldK2 => .next s
  | .fldK3 => .next s
  | .fldL => .next s
  | .naf _ => .next s

/-- An access is one the engine admits: a 32-bit word at an offset that is a multiple of 4 (R61, R64). -/
def admitted (off : Nat) (size : AccessSize) : Bool := size == .word && off % 4 == 0

/-- Every access at an offset outside the window faults, every one that R64 does not admit is refused; the rest is done. -/
def onWindow (off : Nat) (size : AccessSize) (done : Host.Outcome State Fault Refusal) :
    Host.Outcome State Fault Refusal :=
  if Config.windowBytes ≤ off then .fault .outsideWindow
  else if admitted off size then done
  else .refused .unsupportedAccess

/-- `MemRead` (R61): the register's value, or a free draw at a reserved offset (R66). -/
def hostRead (off : Nat) (size : AccessSize) (s : State) : Host.Outcome State Fault Refusal :=
  onWindow off size
    (match windowReg off with
      | some r => .next (s.reply (s.readReg r))
      | none => .next s.replyFree)

/-- `MemWrite` (R61): the register's write, ignored at a reserved offset (R66). -/
def hostWrite (off : Nat) (size : AccessSize) (v : Word) (s : State) : Host.Outcome State Fault Refusal :=
  onWindow off size
    (match windowReg off with
      | some r => writeReg r v s
      | none => .next s)

/-- One action of the host (R13). The reset input has the effect of a soft reset (R340). -/
def hostAccess (a : HostAccess) (s : State) : Host.Outcome State Fault Refusal :=
  match a with
  | .read off size => hostRead off size s
  | .write off size v => hostWrite off size v s
  | .resetInput => .next s.resetEngine

/-- The host's access that issues a command word. -/
def HostAccess.issue (w : Word) : HostAccess := .write cmdOffset .word w

end Sys2Proof.Machine
end

