-- ==== Sys2Proof/Machine/Asm.lean ====
section
/-! DEFINITION. The assembler syntax (R99) and the pseudo-instructions (R100). No step uses them: they let a program be
written down as the spec writes it. -/

namespace Sys2Proof.Machine

/-- The mnemonic of a command (R95). -/
def mnemonic : Instr → String
  | .nop => "NOP"
  | .setfield => "SETFIELD"
  | .setcurve _ _ => "SETCURVE"
  | .fload _ => "FLOAD"
  | .fstore _ => "FSTORE"
  | .fldi _ _ => "FLDI"
  | .fmov _ _ => "FMOV"
  | .fadd _ _ _ => "FADD"
  | .fmul _ _ _ => "FMUL"
  | .fsqr _ _ => "FSQR"
  | .fred _ _ => "FRED"
  | .finv _ _ => "FINV"
  | .ftrace _ => "FTRACE"
  | .fsolve _ _ => "FSOLVE"
  | .ftstb _ _ => "FTSTB"
  | .fsetb _ _ _ => "FSETB"
  | .fclrb _ _ _ => "FCLRB"
  | .fblen _ => "FBLEN"
  | .fshr _ _ _ => "FSHR"
  | .feq _ _ => "FEQ"
  | .fisz _ => "FISZ"
  | .fless _ _ => "FLESS"
  | .pset _ _ _ => "PSET"
  | .pgetx _ _ => "PGETX"
  | .pgety _ _ => "PGETY"
  | .pmov _ _ => "PMOV"
  | .padd _ _ _ => "PADD"
  | .pdbl _ _ => "PDBL"
  | .pneg _ _ => "PNEG"
  | .pcmp _ _ => "PCMP"
  | .pexp _ _ => "PEXP"
  | .peq _ _ => "PEQ"
  | .pisid _ => "PISID"
  | .pchk _ => "PCHK"
  | .pmul _ _ _ _ => "PMUL"
  | .wsize _ => "WSIZE"
  | .wsizei _ => "WSIZEI"
  | .wnaf _ _ => "WNAF"
  | .precomp _ _ => "PRECOMP"
  | .tblrd _ _ _ => "TBLRD"
  | .mulpos _ _ _ => "MULPOS"
  | .ptwp _ _ _ => "PTWP"
  | .ptp2 _ _ _ => "PTP2"

/-- `F0` to `F15`. -/
def fName (r : FReg) : String := "F" ++ toString r.val

/-- `P0` to `P7`. -/
def pName (r : PReg) : String := "P" ++ toString r.val

/-- The optional last operand `NEG`. -/
def negOperand (neg : Bool) : List String := if neg then ["NEG"] else []

/-- The written operands: destination, first source, second source, immediate (R99). -/
def operandTexts : Instr → List String
  | .nop => []
  | .setfield => []
  | .setcurve ra rb => [fName ra, fName rb]
  | .fload rd => [fName rd]
  | .fstore ra => [fName ra]
  | .fldi rd imm => [fName rd, toString imm]
  | .fmov rd ra => [fName rd, fName ra]
  | .fadd rd ra rb => [fName rd, fName ra, fName rb]
  | .fmul rd ra rb => [fName rd, fName ra, fName rb]
  | .fsqr rd ra => [fName rd, fName ra]
  | .fred rd ra => [fName rd, fName ra]
  | .finv rd ra => [fName rd, fName ra]
  | .ftrace ra => [fName ra]
  | .fsolve rd ra => [fName rd, fName ra]
  | .ftstb ra imm => [fName ra, toString imm]
  | .fsetb rd ra imm => [fName rd, fName ra, toString imm]
  | .fclrb rd ra imm => [fName rd, fName ra, toString imm]
  | .fblen ra => [fName ra]
  | .fshr rd ra imm => [fName rd, fName ra, toString imm]
  | .feq ra rb => [fName ra, fName rb]
  | .fisz ra => [fName ra]
  | .fless ra rb => [fName ra, fName rb]
  | .pset rd ra rb => [pName rd, fName ra, fName rb]
  | .pgetx rd ra => [fName rd, pName ra]
  | .pgety rd ra => [fName rd, pName ra]
  | .pmov rd ra => [pName rd, pName ra]
  | .padd rd ra rb => [pName rd, pName ra, pName rb]
  | .pdbl rd ra => [pName rd, pName ra]
  | .pneg rd ra => [pName rd, pName ra]
  | .pcmp rd ra => [fName rd, pName ra]
  | .pexp rd ra => [pName rd, fName ra]
  | .peq ra rb => [pName ra, pName rb]
  | .pisid ra => [pName ra]
  | .pchk ra => [pName ra]
  | .pmul rd ra rb neg => [pName rd, pName ra, fName rb] ++ negOperand neg
  | .wsize ra => [fName ra]
  | .wsizei imm => [toString imm]
  | .wnaf ra imm => [fName ra, toString imm]
  | .precomp ra imm => [pName ra, toString imm]
  | .tblrd rd neg idx => [pName rd, toString idx.val] ++ negOperand neg
  | .mulpos rd ra rb => [pName rd, pName ra, fName rb]
  | .ptwp rd ra rb => [pName rd, pName ra, pName rb]
  | .ptp2 rd ra imm => [pName rd, pName ra, toString imm]

/-- A command as R99 writes it. -/
def asmText (i : Instr) : String :=
  match operandTexts i with
  | [] => mnemonic i
  | ops => mnemonic i ++ " " ++ ", ".intercalate ops

/-! ### Host actions as programs -/

/-- `WR name, value` at an offset (R99). -/
def wr (off : Nat) (v : Nat) : HostAccess := .write off .word (BitVec.ofNat 32 v)

/-- `RD name` at an offset (R99). -/
def rd (off : Nat) : HostAccess := .read off .word

/-- A command of a program: its word written to `CMD` (R99). -/
def cmd (i : Instr) : HostAccess := .issue (encode i)

/-- The 16 words of a value written to `DBUF`, word 0 first (R32, R63). DESIGN CHOICE (log 16): R100 gives no number for
`WR DBUF, x-words`; the model writes all 16 words, those the value does not reach as zero. -/
def writeWords (v : Nat) : List HostAccess :=
  (List.range 16).map fun j => wr (0x100 + 4 * j) ((v >>> (32 * j)) % 2 ^ 32)

/-- `WR DBUF, words` then `FLOAD`: how a value enters a register (R32, R344), with the 16 words of `writeWords` (log 16). -/
def loadValue (r : FReg) (v : Nat) : List HostAccess := writeWords v ++ [cmd (.fload r)]

/-- The pseudo-instructions of R100. -/
inductive Pseudo where
  | fsub (rd ra rb : FReg)
  | fzero (rd : FReg)
  | fone (rd : FReg)
  | faddm (rd rb : FReg)
  | fshrm (rd : FReg) (imm : Nat)
  | ptwice (rd ra : PReg)
  | pident (rd : PReg) (rt : FReg)
  | pload (rd : PReg) (rx ry : FReg) (x y : Nat)
  deriving DecidableEq, Repr

/-- The expansion of a pseudo-instruction (R100). -/
def expandPseudo : Pseudo → List HostAccess
  | .fsub rd ra rb => [cmd (.fadd rd ra rb)]
  | .fzero rd => [cmd (.fldi rd 0)]
  | .fone rd => [cmd (.fldi rd 1)]
  | .faddm rd rb => [cmd (.fadd rd rd rb)]
  | .fshrm rd imm => [cmd (.fshr rd rd imm)]
  | .ptwice rd ra => [cmd (.pdbl rd ra)]
  | .pident rd rt => [cmd (.fldi rt 0), cmd (.pset rd rt rt)]
  | .pload rd rx ry x y => loadValue rx x ++ loadValue ry y ++ [cmd (.pset rd rx ry)]

/-- The bring-up of a field (R342 steps 2 and 3). -/
def bringUpField (m nk k1 k2 k3 : Nat) : List HostAccess :=
  [wr 0x030 m, wr 0x034 nk, wr 0x038 k1, wr 0x03C k2, wr 0x040 k3, cmd .setfield]

/-- The bring-up of a curve, its coefficients loaded through two registers (R342 steps 4 and 5). -/
def bringUpCurve (ra rb : FReg) (a b : Nat) : List HostAccess :=
  loadValue ra a ++ loadValue rb b ++ [cmd (.setcurve ra rb)]

end Sys2Proof.Machine
end

