-- ==== Sys2Proof/Machine/HostLayer.lean ====
section
/-! DEFINITION. The host layer of spec 48_host_layer: what software on the host computes with the engine's functions. The
scope file puts it outside the engine (R5); no step uses it. It is here so that the source's signature vectors and the
host's duties can be stated. Each operation is given as a value and, where the rule gives one, as the engine sequence. -/

namespace Sys2Proof.Machine

/-- What the host holds for a curve (R271): the field, the coefficients, the group order, the cofactor, the base point. -/
structure HostCurve where
  m : Nat
  nk : Nat
  k1 : Nat
  k2 : Nat
  k3 : Nat
  a : Nat
  b : Nat
  order : Nat
  cofactor : Nat
  base : Point
  deriving DecidableEq, Repr

/-- The named curve DSTU_PB_257, with the constants of R271. -/
def dstuPb257 : HostCurve where
  m := 257
  nk := 1
  k1 := 12
  k2 := 0
  k3 := 0
  a := 0
  b := 0x01CEF494720115657E18F938D7A7942394FF9425C1458C57861F9EEA6ADBE3BE10
  order := 0x800000000000000000000000000000006759213AF182E987D3E17714907D470D
  cofactor := 4
  base :=
    ⟨0x002A29EF207D0E9B6C55CD260B306C7E007AC491CA1B10C62334A9E8DCD8D20FB7,
      0x010686D41FF744D4449FCCF6D8EEA03102E6812C93A9D60B978B702CF156D814EF⟩

/-- The curve registry: the names of R289 whose constants the spec gives; any other name is the host's
`UnsupportedCurveError` (R282, R289). -/
def resolveCurve (name : String) : Option HostCurve := if name = "DSTU_PB_257" then some dstuPb257 else none

/-- The engine's context for a host curve. -/
def HostCurve.ctx (H : HostCurve) : CurveCtx := ⟨⟨H.m, modulus H.m H.nk H.k1 H.k2 H.k3⟩, H.a, H.b⟩

/-- What `PMUL` computes of a point (R192, R281): `k·P`, or `k·(-P)` with the sign. -/
def pointMul (C : CurveCtx) (P : Point) (k : Nat) (neg : Bool) : Except FaultCode Point :=
  if k = 0 then .ok Point.identity
  else do
    let r ← mulpos C (if neg then pneg P else P) k
    return r.point

/-! ### The KeyPair operations (R272 to R278) -/

/-- `Priv.pub()`: `-(d·G)` (R272, R273). -/
def hostPub (H : HostCurve) (d : Nat) : Except FaultCode Point := do
  let R ← pointMul H.ctx H.base d false
  return pneg R

/-- `PMUL P1, P0, F1` ; `PNEG P1, P1` (R273). -/
def pubSequence : List Instr := [.pmul 1 0 1 false, .pneg 1 1]

/-- `truncate(v)`: the low `blen(order) - 1` bits (R274). -/
def hostTruncate (order v : Nat) : Nat := v % 2 ^ (blen order - 1)

/-- What the host issues on reading `RES = len` after `FBLEN`, for `t = blen(order)`: nothing once `len` is below `t`, else
`FCLRB` of the top bit and `FBLEN` again (R274). -/
def truncatePass (r : FReg) (t len : Nat) : List Instr := if len < t then [] else [.fclrb r r (len - 1), .fblen r]

/-- The engine form of `truncate` on a register (R274); `lens` are the values of `RES` the host reads, in order. -/
def truncateSequence (r : FReg) (t : Nat) (lens : List Nat) : List Instr := .fblen r :: lens.flatMap (truncatePass r t)

/-- One attempt of `Priv.sign` with nonce `e` and hash element `h`: `none` asks for a fresh nonce (R275). -/
def signAttempt (H : HostCurve) (d h e : Nat) : Except FaultCode (Option (Nat × Nat)) := do
  let R ← pointMul H.ctx H.base e false
  let r := hostTruncate H.order (fmul H.ctx.fld h R.x)
  return if R.x = 0 ∨ r = 0 then none else some (r, (d * r + e) % H.order)

/-- The engine's part of one attempt (R275), the truncation of `F4` in its engine form (R274). The host asks for a fresh nonce
when `FISZ F2` or `FISZ F4` leaves `RES = 1`; `FSTORE F4` leaves `r` in `DBUF`, from which the host computes `s`. -/
def signSequence (t : Nat) (lens : List Nat) : List Instr :=
  [.pmul 1 0 1 false, .pgetx 2 1, .fisz 2, .fmul 4 3 2] ++ truncateSequence 4 t lens ++ [.fisz 4, .fstore 4]

/-- `Priv.sign(hash)` on a given stream of nonces (R275, R280): the first attempt that asks for no retry; `none` if the
stream ends first. Drawing the nonces is the host's random source. -/
def hostSign (H : HostCurve) (d h : Nat) : List Nat → Except FaultCode (Option (Nat × Nat))
  | [] => .ok none
  | e :: es => do
    match ← signAttempt H d h e with
    | some rs => return some rs
    | none => hostSign H d h es

/-- `Pub.verify(hash, signature)` (R276): the magnitude tests compare bit lengths, as `FLESS` does. -/
def hostVerify (H : HostCurve) (Q : Point) (h r s : Nat) : Except FaultCode Bool :=
  if r = 0 ∨ s = 0 ∨ blen H.order < blen s ∨ blen H.order < blen r then .ok false
  else do
    let A ← pointMul H.ctx H.base s false
    let B ← pointMul H.ctx Q r false
    let R ← padd H.ctx A B
    return !pisid R && hostTruncate H.order (fmul H.ctx.fld h R.x) == r

/-- The engine's part of a verification (R276), the truncation of `F7` in its engine form (R274); `FEQ F7, F2` leaves the
result. -/
def verifySequence (t : Nat) (lens : List Nat) : List Instr :=
  [.fisz 1, .fisz 2, .fless 5 1, .fless 5 2, .pmul 2 0 1 false, .pmul 3 1 2 false, .padd 4 2 3, .pisid 4, .pgetx 6 4,
    .fmul 7 3 6] ++ truncateSequence 7 t lens ++ [.feq 7 2]

/-- `Pub.validate()` (R277). -/
def hostValidate (H : HostCurve) (Q : Point) : Except FaultCode Bool :=
  if pisid Q || !pcontains H.ctx Q then .ok false
  else do
    let R ← pointMul H.ctx Q H.order false
    return pisid R

/-- `PISID P1` ; `PCHK P1` ; `PMUL P2, P1, F5` ; `PISID P2` (R277). -/
def validateSequence : List Instr := [.pisid 1, .pchk 1, .pmul 2 1 5 false, .pisid 2]

/-- `Priv.derive(pub)`: the abscissa of `(cofactor·d)·Q`, not negated (R278). -/
def hostDerive (H : HostCurve) (d : Nat) (Q : Point) : Except FaultCode Nat := do
  let Z ← pointMul H.ctx Q (H.cofactor * d) false
  return Z.x

/-- `PMUL P2, P1, F1` ; `PGETX F2, P2` ; `FSTORE F2` (R278). -/
def deriveSequence : List Instr := [.pmul 2 1 1 false, .pgetx 2 2, .fstore 2]

/-! ### Byte formats (R285, R287) -/

/-- Big-endian bytes as an integer (R285 item 1). -/
def bytesBigEndian (bs : List Byte) : Nat := bs.foldl (fun v b => v * 256 + b.toNat) 0

/-- The `n` big-endian bytes of an integer (R285 item 4). DESIGN CHOICE (log 17): for a value wider than `n` bytes the
low-order `n` bytes are kept and the high-order ones dropped; the source does not say which end is cut (N5). -/
def toBytesBigEndian (n v : Nat) : List Byte :=
  (List.range n).map fun i => BitVec.ofNat 8 (v >>> (8 * (n - 1 - i)))

/-- The `n` little-endian bytes of an integer (R285 item 4), cut as `toBytesBigEndian` cuts them (log 17). -/
def toBytesLittleEndian (n v : Nat) : List Byte := (toBytesBigEndian n v).reverse

/-- `pub.serialize()`: `0x04`, the length, the compressed value's bytes reversed, for a byte length the source does not
give (R287, N5). -/
def serializePoint (C : CurveCtx) (n : Nat) (Q : Point) : Except FaultCode (List Byte) := do
  let c ← pcompress C Q
  return 0x04 :: BitVec.ofNat 8 n :: toBytesLittleEndian n c

end Sys2Proof.Machine
end

