-- ==== Sys2Proof/Safety.lean ====
section
/-! DEFINITION. The terms the statements are written in: what a sound or proper field and curve is, which context and which
sources a command needs, the invariants of the state, and which parts of a state no access can observe. -/

namespace Sys2Proof

/-! ### The commands, sorted by what they need and what they write -/

/-- The command needs a field context (R303). -/
def Instr.needsField : Instr → Bool
  | .nop => false
  | .setfield => false
  | .wsizei _ => false
  | _ => true

/-- The command needs a curve context (R304). -/
def Instr.needsCurve : Instr → Bool
  | .pset .. => true
  | .pgetx .. => true
  | .pgety .. => true
  | .pmov .. => true
  | .padd .. => true
  | .pdbl .. => true
  | .pneg .. => true
  | .pcmp .. => true
  | .pexp .. => true
  | .peq .. => true
  | .pisid .. => true
  | .pchk .. => true
  | .pmul .. => true
  | .precomp .. => true
  | .tblrd .. => true
  | .mulpos .. => true
  | .ptwp .. => true
  | .ptp2 .. => true
  | _ => false

/-- The command is `TBLRD`. -/
def Instr.readsTable : Instr → Bool
  | .tblrd _ _ _ => true
  | _ => false

/-- The eleven commands that write `RES` (R28). -/
def Instr.writesRes : Instr → Bool
  | .ftrace _ => true
  | .ftstb _ _ => true
  | .fblen _ => true
  | .feq _ _ => true
  | .fisz _ => true
  | .fless _ _ => true
  | .peq _ _ => true
  | .pisid _ => true
  | .pchk _ => true
  | .wsize _ => true
  | .wsizei _ => true
  | _ => false

/-- The command writes the NAF buffer's entries (R33). -/
def Instr.writesNaf : Instr → Bool
  | .wnaf _ _ => true
  | .mulpos _ _ _ => true
  | .pmul _ _ _ _ => true
  | _ => false

/-- The command writes the table's entries (R34). -/
def Instr.writesTable : Instr → Bool
  | .precomp _ _ => true
  | .mulpos _ _ _ => true
  | .pmul _ _ _ _ => true
  | _ => false

/-- The field register the command writes (R22). -/
def Instr.destF : Instr → Option FReg
  | .fload rd => some rd
  | .fldi rd _ => some rd
  | .fmov rd _ => some rd
  | .fadd rd _ _ => some rd
  | .fmul rd _ _ => some rd
  | .fsqr rd _ => some rd
  | .fred rd _ => some rd
  | .finv rd _ => some rd
  | .fsolve rd _ => some rd
  | .fsetb rd _ _ => some rd
  | .fclrb rd _ _ => some rd
  | .fshr rd _ _ => some rd
  | .pgetx rd _ => some rd
  | .pgety rd _ => some rd
  | .pcmp rd _ => some rd
  | _ => none

/-- The point register the command writes (R25). -/
def Instr.destP : Instr → Option PReg
  | .pset rd _ _ => some rd
  | .pmov rd _ => some rd
  | .padd rd _ _ => some rd
  | .pdbl rd _ => some rd
  | .pneg rd _ => some rd
  | .pexp rd _ => some rd
  | .pmul rd _ _ _ => some rd
  | .tblrd rd _ _ => some rd
  | .mulpos rd _ _ => some rd
  | .ptwp rd _ _ => some rd
  | .ptp2 rd _ _ => some rd
  | _ => none

end Sys2Proof

namespace Sys2Proof.Machine

/-! ### Contexts -/

/-- A field context `red` works for: a degree of at least 2 and a modulus of exactly that degree (R29). -/
def FieldCtx.Sound (K : FieldCtx) : Prop := 2 ≤ K.m ∧ blen K.f = K.m + 1

/-- The modulus has no factor but 1 and itself; a factor is never wider than the modulus (R349 item 1). -/
def FieldCtx.Irreducible (K : FieldCtx) : Prop :=
  ∀ a < 2 ^ (K.m + 1), ∀ b < 2 ^ (K.m + 1), clmul a b = K.f → a = 1 ∨ b = 1

/-- A proper field: the modulus the host owes (R125, R342). -/
def FieldCtx.Proper (K : FieldCtx) : Prop := K.Sound ∧ K.Irreducible

/-- A curve context over any modulus: reduced coefficients, `b ≠ 0` (R31). -/
def CurveCtx.Sound (C : CurveCtx) : Prop :=
  C.fld.Sound ∧ C.a < 2 ^ C.fld.m ∧ C.b < 2 ^ C.fld.m ∧ C.b ≠ 0

/-- A curve context over a proper field. -/
def CurveCtx.Proper (C : CurveCtx) : Prop := C.Sound ∧ C.fld.Irreducible

/-- Both coordinates are reduced (R26). -/
def Point.Reduced (K : FieldCtx) (P : Point) : Prop := P.x < 2 ^ K.m ∧ P.y < 2 ^ K.m

/-- A point of the curve: reduced, and the identity or a solution of the curve equation (R27, R178). -/
def OnCurve (C : CurveCtx) (P : Point) : Prop :=
  P.Reduced C.fld ∧ (P = Point.identity ∨ pcontains C P = true)

/-- The reduction exponents sum as R122 writes them: `Σ 2^k + 1`, the modulus without its leading term. -/
def FieldCtx.tail (K : FieldCtx) : Nat := K.f ^^^ 2 ^ K.m

/-! ### What a command needs -/

/-- Every source register the command names is valid (R305). -/
def State.sourcesValid (s : State) : Instr → Bool
  | .setcurve ra rb => s.fval[ra] && s.fval[rb]
  | .fstore ra => s.fval[ra]
  | .fmov _ ra => s.fval[ra]
  | .fadd _ ra rb => s.fval[ra] && s.fval[rb]
  | .fmul _ ra rb => s.fval[ra] && s.fval[rb]
  | .fsqr _ ra => s.fval[ra]
  | .fred _ ra => s.fval[ra]
  | .finv _ ra => s.fval[ra]
  | .ftrace ra => s.fval[ra]
  | .fsolve _ ra => s.fval[ra]
  | .ftstb ra _ => s.fval[ra]
  | .fsetb _ ra _ => s.fval[ra]
  | .fclrb _ ra _ => s.fval[ra]
  | .fblen ra => s.fval[ra]
  | .fshr _ ra _ => s.fval[ra]
  | .feq ra rb => s.fval[ra] && s.fval[rb]
  | .fisz ra => s.fval[ra]
  | .fless ra rb => s.fval[ra] && s.fval[rb]
  | .pset _ ra rb => s.fval[ra] && s.fval[rb]
  | .pgetx _ ra => s.pval[ra]
  | .pgety _ ra => s.pval[ra]
  | .pmov _ ra => s.pval[ra]
  | .padd _ ra rb => s.pval[ra] && s.pval[rb]
  | .pdbl _ ra => s.pval[ra]
  | .pneg _ ra => s.pval[ra]
  | .pcmp _ ra => s.pval[ra]
  | .pexp _ ra => s.fval[ra]
  | .peq ra rb => s.pval[ra] && s.pval[rb]
  | .pisid ra => s.pval[ra]
  | .pchk ra => s.pval[ra]
  | .pmul _ ra rb _ => s.pval[ra] && s.fval[rb]
  | .wsize ra => s.fval[ra]
  | .wnaf ra _ => s.fval[ra]
  | .precomp ra _ => s.pval[ra]
  | .mulpos _ ra rb => s.pval[ra] && s.fval[rb]
  | .ptwp _ ra rb => s.pval[ra] && s.pval[rb]
  | .ptp2 _ ra _ => s.pval[ra]
  | .nop => true
  | .setfield => true
  | .fload _ => true
  | .fldi _ _ => true
  | .wsizei _ => true
  | .tblrd _ _ _ => true

/-- The contexts the command needs are active (R303, R304). -/
def State.contextsReady (s : State) (i : Instr) : Bool :=
  (!i.needsField || s.fv) && (!i.needsCurve || s.cv)

/-- The immediate is one the command admits in this state (R313). -/
def State.immediateAdmitted (s : State) : Instr → Bool
  | .fsetb _ _ imm => decide (imm < 32 * s.fieldWords)
  | .wnaf _ imm => decide (2 ≤ imm ∧ imm ≤ 16)
  | .precomp _ imm => decide (2 ≤ imm ∧ imm ≤ 8)
  | .tblrd _ _ idx => decide (idx.val < 2 ^ (s.tw.toNat - 2))
  | _ => true

/-- Executing the command in this state ends in the fault: the fault record is set and nothing else changes (R310). -/
def State.Faults (s : State) (i : Instr) (c : FaultCode) : Prop :=
  exec i s = .next { s with fault := true, errcode := c.code, faultcmd := encode i }

/-! ### Window accesses -/

/-- A word read at the offset returns the value and changes no engine state (R61, R65). -/
def State.ReadsWord (s : State) (off : Nat) (v : Word) : Prop :=
  hostRead off .word s = .next { s with replies := s.replies ++ [v] }

/-- The registers whose write is ignored (R62): every listed one but `CTRL`, `CMD`, `CFG_*` and `DBUF`. -/
def WindowReg.readOnly : WindowReg → Bool
  | .ctrl => false
  | .cmd => false
  | .cfgM => false
  | .cfgNk => false
  | .cfgK1 => false
  | .cfgK2 => false
  | .cfgK3 => false
  | .dbuf _ => false
  | _ => true

/-- The host's access resets the engine: the reset input, or a word write to `CTRL` with bit 0 set (R340). -/
def HostAccess.resets : HostAccess → Bool
  | .resetInput => true
  | .write off size v => off == ctrlOffset && size == .word && v.getLsbD 0
  | .read _ _ => false

/-! ### Invariants of the state -/

/-- What the valid bits of the contexts promise (R29, R31, R22, R25, R33, R34). -/
def State.ContextInv (s : State) : Prop :=
  (s.fv = true → admissibleField s.fldM.toNat s.fldNk.toNat s.fldK1.toNat s.fldK2.toNat s.fldK3.toNat = true ∧
    (s.fldNk = 1 → s.fldK2 = 0 ∧ s.fldK3 = 0)) ∧
  (s.fv = false → s.fldM = 0 ∧ s.fldNk = 0 ∧ s.fldK1 = 0 ∧ s.fldK2 = 0 ∧ s.fldK3 = 0) ∧
  (s.cv = true → s.fv = true ∧ s.ca.toNat < 2 ^ s.fldM.toNat ∧ s.cb.toNat < 2 ^ s.fldM.toNat ∧ s.cb ≠ 0) ∧
  (∀ k : FReg, s.fval[k] = true → s.fv = true) ∧
  (∀ k : PReg, s.pval[k] = true → s.cv = true) ∧
  (s.nv = true → s.fv = true) ∧
  (s.tv = true → s.cv = true)

/-- A point register's coordinates are reduced. -/
def PointReg.Reduced (m : Nat) (P : PointReg) : Prop := P.x.toNat < 2 ^ m ∧ P.y.toNat < 2 ^ m

/-- Valid field registers fit the field's words (R23); valid points and valid table entries are reduced (R26, R34). -/
def State.RegisterInv (s : State) : Prop :=
  (∀ k : FReg, s.fval[k] = true → s.f[k].toNat < 2 ^ (32 * s.fieldWords)) ∧
  (∀ k : PReg, s.pval[k] = true → s.p[k].Reduced s.fldM.toNat) ∧
  (s.tv = true → s.tp.Reduced s.fldM.toNat ∧ ∀ j : Fin 64, j.val < 2 ^ (s.tw.toNat - 2) →
    s.tpos[j].Reduced s.fldM.toNat ∧ s.tneg[j].Reduced s.fldM.toNat)

/-- A valid NAF buffer holds the recoding of some 512-bit scalar, with a legal width (R33, R217). -/
def State.NafInv (s : State) : Prop :=
  s.nv = true → 2 ≤ s.nafW.toNat ∧ s.nafW.toNat ≤ 16 ∧ s.nafLen.toNat ≤ 257 ∧
    ∃ k < 2 ^ 512, s.naf.toList.take s.nafLen.toNat = windowNaf s.nafW.toNat k

/-- A valid table is the one R219 computes from `TP` and `TW` on the active curve (R34, R220). -/
def State.TableInv (s : State) : Prop :=
  s.tv = true → 2 ≤ s.tw.toNat ∧ s.tw.toNat ≤ 8 ∧
    ∃ T N, precompute s.curveCtx s.tp.val s.tw.toNat = .ok (T, N) ∧
      T.length = 2 ^ (s.tw.toNat - 2) ∧ N.length = 2 ^ (s.tw.toNat - 2) ∧
      ∀ j : Fin 64, j.val < 2 ^ (s.tw.toNat - 2) →
        some s.tpos[j] = (T[j.val]?).map Point.toReg ∧ some s.tneg[j] = (N[j.val]?).map Point.toReg

/-- The fault record is empty, or holds a cause and a word that fits the cause (R36, R301, R302). -/
def State.FaultInv (s : State) : Prop :=
  (s.fault = false → s.errcode = 0 ∧ s.faultcmd = 0) ∧
  (s.fault = true → (∃ c : FaultCode, s.errcode = c.code) ∧
    (s.errcode = FaultCode.illegalCommand.code ↔ ∀ i, decode s.faultcmd ≠ .ok i))

/-! ### What cannot be observed -/

/-- The two states differ at most in what no command and no access can observe: contents of invalid registers, the
coefficients without a curve context, the NAF buffer and the table outside their valid parts (R22, R25, R31, R33, R34,
R341). -/
structure State.SameObservable (s t : State) : Prop where
  fval : s.fval = t.fval
  f : ∀ k : FReg, s.fval[k] = true → s.f[k] = t.f[k]
  pval : s.pval = t.pval
  p : ∀ k : PReg, s.pval[k] = true → s.p[k] = t.p[k]
  res : s.res = t.res
  fv : s.fv = t.fv
  fld : s.fv = true → s.fldM = t.fldM ∧ s.fldNk = t.fldNk ∧ s.fldK1 = t.fldK1 ∧ s.fldK2 = t.fldK2 ∧ s.fldK3 = t.fldK3
  cfg : s.cfgM = t.cfgM ∧ s.cfgNk = t.cfgNk ∧ s.cfgK1 = t.cfgK1 ∧ s.cfgK2 = t.cfgK2 ∧ s.cfgK3 = t.cfgK3
  cv : s.cv = t.cv
  coeffs : s.cv = true → s.ca = t.ca ∧ s.cb = t.cb
  dbuf : s.dbuf = t.dbuf
  nv : s.nv = t.nv
  nafHead : s.nv = true → s.nafLen = t.nafLen ∧ s.nafW = t.nafW
  naf : s.nv = true → ∀ j : Fin 257, j.val < s.nafLen.toNat → s.naf[j] = t.naf[j]
  tv : s.tv = t.tv
  tableHead : s.tv = true → s.tw = t.tw
  table : s.tv = true → ∀ j : Fin 64, j.val < 2 ^ (s.tw.toNat - 2) → s.tpos[j] = t.tpos[j] ∧ s.tneg[j] = t.tneg[j]
  record : s.fault = t.fault ∧ s.errcode = t.errcode ∧ s.faultcmd = t.faultcmd
  cseq : s.cseq = t.cseq
  bus : s.pending = t.pending ∧ s.replies = t.replies ∧ s.draws = t.draws

/-- Two outcomes agree: both go on, to states that agree; or both stop, for the same reason. -/
def SameOutcome (R : State → State → Prop) :
    Host.Outcome State Fault Refusal → Host.Outcome State Fault Refusal → Prop
  | .next s, .next t => R s t
  | .fault a, .fault b => a = b
  | .refused a, .refused b => a = b
  | _, _ => False

end Sys2Proof.Machine
end

