-- ==== Sys2Proof/Certificates/Slice0/Obligations.lean ====
section
/-! DEFINITION. The statements for the provers. Every equation of the form `exec … = .next { s with … }` gives the
command's result, says that it completes, and is its frame: a field the record does not name is unchanged. The engine has
no memory and no program counter (R40, R60); the field `cseq` is the only one every completed command moves (R41). -/

open Sys2Proof Sys2Proof.Machine

/-! ### Encoding -/

/-- Decoding the word of a well-formed command gives the command back: no operand bit is dropped (R91 to R95). -/
def Obligations.DecodeOfEncodeIsIdentity : Prop :=
  ∀ i : Instr, i.wellFormed = true → decode (encode i) = .ok i

/-- A legal word is the word of the command it decodes to, and that command is well formed: no bit of a legal word is
without a meaning (R91 to R96). -/
def Obligations.EncodeOfDecodeIsIdentity : Prop :=
  ∀ (w : Word) (i : Instr), decode w = .ok i → encode i = w ∧ i.wellFormed = true

/-- A word is illegal exactly when its opcode is unassigned, or the opcode's row fails the test `(w & mask) = match`; the
unassigned opcodes are the listed ranges (R91, R96, R302). -/
def Obligations.DecodeRejectsExactlyUnmatchedWords : Prop :=
  ∀ w : Word,
    ((∃ i, decode w = .ok i) ↔ ∃ r ∈ opcodeMap, w &&& r.format.mask = r.matchBits) ∧
    (decode w = .error .unassignedOpcode ↔
      (0x07 ≤ (w >>> 24).toNat ∧ (w >>> 24).toNat ≤ 0x0F) ∨ (w >>> 24).toNat = 0x17 ∨
      (0x2D ≤ (w >>> 24).toNat ∧ (w >>> 24).toNat ≤ 0x2F) ∨ 0x38 ≤ (w >>> 24).toNat)

/-- A few words written out in the spec decode to the commands it says they are (R99, R132, R192, R221, R224 to R226,
R252). -/
def Obligations.DecodeReadsSampleWords : Prop :=
  decode 0x11312000 = .ok (.fmul 3 1 2) ∧
  decode 0x1C220001 = .ok (.fshr 2 2 1) ∧
  decode 0x2C102001 = .ok (.pmul 1 0 2 true) ∧
  decode 0x34300802 = .ok (.tblrd 3 true 2) ∧
  decode 0x15050000 = .ok (.ftrace 5) ∧
  decode 0x05400001 = .ok (.fldi 4 1) ∧
  decode 0x32010003 = .ok (.wnaf 1 3) ∧
  decode 0x33000004 = .ok (.precomp 0 4) ∧
  decode 0x35102000 = .ok (.mulpos 1 0 2) ∧
  decode 0x02001000 = .ok (.setcurve 0 1)

/-! ### Steps and the window -/

/-- When the host's next access writes a legal word to `CMD` of an engine that is not faulted, the step takes that access
off the host's stream and executes the command the word decodes to; nothing else is added around it (R38, R91). -/
def Obligations.StepRunsDecodedCommand : Prop :=
  ∀ (s : State) (w : Word) (i : Instr) (rest : List HostAccess),
    s.pending = .write 0x018 .word w :: rest → s.fault = false → decode w = .ok i →
      step s = exec i { s with pending := rest }

/-- An illegal word written to `CMD` sets the fault record to `IllegalCommand` and the word, and changes nothing else
(R302, R310). -/
def Obligations.IllegalWordIsRecorded : Prop :=
  ∀ (s : State) (w : Word) (e : DecodeError), s.fault = false → decode w = .error e →
    hostWrite 0x018 .word w s = .next { s with fault := true, errcode := 0x01, faultcmd := w }

/-- While `FAULT = 1` a write to `CMD` changes nothing; reads, writes to `DBUF` and to the staging registers, and the
write to `CTRL` work as they do without a fault (R312). -/
def Obligations.FaultedEngineDropsCommands : Prop :=
  ∀ s : State, s.fault = true →
    (∀ w, hostWrite 0x018 .word w s = .next s) ∧
    (∀ off r, off < 0x1000 → off % 4 = 0 → windowReg off = some r → s.ReadsWord off (s.readReg r)) ∧
    (∀ (j : Fin 16) v, hostWrite (0x100 + 4 * j.val) .word v s = .next { s with dbuf := s.dbuf.set j v }) ∧
    (∀ v, hostWrite 0x030 .word v s = .next { s with cfgM := v } ∧
      hostWrite 0x034 .word v s = .next { s with cfgNk := v } ∧
      hostWrite 0x038 .word v s = .next { s with cfgK1 := v } ∧
      hostWrite 0x03C .word v s = .next { s with cfgK2 := v } ∧
      hostWrite 0x040 .word v s = .next { s with cfgK3 := v }) ∧
    (∀ v, v.getLsbD 0 = true → hostWrite 0x010 .word v s = .next s.resetEngine)

/-- What a word read of each listed offset returns (R62, with R28 to R43), whatever the state; the read changes no engine
state. -/
def Obligations.WindowReadsReturnRegisters : Prop :=
  ∀ s : State,
    (s.ReadsWord 0x000 0x4746324D ∧ s.ReadsWord 0x004 0x00010000 ∧ s.ReadsWord 0x008 0x08081010 ∧
      s.ReadsWord 0x00C 0x00400101) ∧
    (s.ReadsWord 0x010 0 ∧ s.ReadsWord 0x018 0) ∧
    (∃ v : Word, s.ReadsWord 0x014 v ∧ v.getLsbD 0 = s.fault ∧ v.getLsbD 1 = s.fv ∧ v.getLsbD 2 = s.cv ∧
      v.getLsbD 3 = s.nv ∧ v.getLsbD 4 = s.tv ∧ v.extractLsb' 5 3 = 0 ∧ v.extractLsb' 8 8 = s.errcode ∧
      v.extractLsb' 16 16 = 0) ∧
    (s.ReadsWord 0x01C s.res ∧ s.ReadsWord 0x020 s.faultcmd ∧ s.ReadsWord 0x024 s.cseq) ∧
    (s.nv = false → s.ReadsWord 0x028 0) ∧
    (s.nv = true → ∃ v : Word, s.ReadsWord 0x028 v ∧ v.extractLsb' 0 16 = s.nafLen ∧ v.extractLsb' 16 8 = s.nafW ∧
      v.extractLsb' 24 8 = 0) ∧
    (s.tv = false → s.ReadsWord 0x02C 0) ∧
    (s.tv = true → ∃ v : Word, s.ReadsWord 0x02C v ∧ v.extractLsb' 0 8 = s.tw ∧
      v.extractLsb' 8 16 = BitVec.ofNat 16 (2 ^ (s.tw.toNat - 2)) ∧ v.extractLsb' 24 8 = 0) ∧
    (s.ReadsWord 0x030 s.cfgM ∧ s.ReadsWord 0x034 s.cfgNk ∧ s.ReadsWord 0x038 s.cfgK1 ∧ s.ReadsWord 0x03C s.cfgK2 ∧
      s.ReadsWord 0x040 s.cfgK3) ∧
    (s.fv = false → s.ReadsWord 0x050 0 ∧ s.ReadsWord 0x054 0 ∧ s.ReadsWord 0x058 0 ∧ s.ReadsWord 0x05C 0 ∧
      s.ReadsWord 0x060 0 ∧ s.ReadsWord 0x064 0) ∧
    (s.fv = true → s.ReadsWord 0x050 s.fldM ∧ s.ReadsWord 0x054 s.fldNk ∧ s.ReadsWord 0x058 s.fldK1 ∧
      s.ReadsWord 0x05C s.fldK2 ∧ s.ReadsWord 0x060 s.fldK3 ∧
      s.ReadsWord 0x064 (BitVec.ofNat 32 ((s.fldM.toNat + 31) / 32))) ∧
    (∀ j : Fin 16, s.ReadsWord (0x100 + 4 * j.val) s.dbuf[j]) ∧
    (∀ j : Fin 257, s.ReadsWord (0x400 + 4 * j.val) (if s.nv = true ∧ j.val < s.nafLen.toNat then s.naf[j] else 0))

/-- A read never changes engine state, at any offset: it adds one value to what the host has been told, and counts a free
draw if the offset is reserved (R65, R66; the count is the model's own, log 3). -/
def Obligations.ReadsHaveNoSideEffects : Prop :=
  ∀ (s t : State) (off : Nat) (size : AccessSize), hostRead off size s = .next t →
    ∃ v d, t = { s with replies := s.replies ++ [v], draws := d } ∧ (windowReg off ≠ none → d = s.draws)

/-- A word write to a staging register or to `DBUF` stores the value and does nothing else; a write to a read-only register
is ignored (R30, R32, R62, R65). -/
def Obligations.WindowWritesStoreOrAreIgnored : Prop :=
  ∀ (s : State) (v : Word),
    hostWrite 0x030 .word v s = .next { s with cfgM := v } ∧
    hostWrite 0x034 .word v s = .next { s with cfgNk := v } ∧
    hostWrite 0x038 .word v s = .next { s with cfgK1 := v } ∧
    hostWrite 0x03C .word v s = .next { s with cfgK2 := v } ∧
    hostWrite 0x040 .word v s = .next { s with cfgK3 := v } ∧
    (∀ j : Fin 16, hostWrite (0x100 + 4 * j.val) .word v s = .next { s with dbuf := s.dbuf.set j v }) ∧
    (∀ off r, off < 0x1000 → off % 4 = 0 → windowReg off = some r → r.readOnly = true →
      hostWrite off .word v s = .next s)

/-- A reserved offset is a multiple of 4 in one of the four listed ranges. A write there is ignored; a read returns some
value, one free draw, and changes no engine state (R66; nothing is said of the value, log 3). -/
def Obligations.ReservedOffsetsAreInert : Prop :=
  ∀ (s : State) (v : Word) (off : Nat), off % 4 = 0 →
    ((0x044 ≤ off ∧ off ≤ 0x04C) ∨ (0x068 ≤ off ∧ off ≤ 0x0FC) ∨ (0x140 ≤ off ∧ off ≤ 0x3FC) ∨
      (0x804 ≤ off ∧ off ≤ 0xFFC)) →
    windowReg off = none ∧ hostWrite off .word v s = .next s ∧
      ∃ x, hostRead off .word s = .next { s with replies := s.replies ++ [x], draws := s.draws + 1 }

/-- Inside the window, an access that is not one aligned 32-bit word is refused and given no meaning (R64). Outside the
window there is no register of the engine, and the model stops (R60, R67; log 5). -/
def Obligations.UnadmittedAccessesStop : Prop :=
  ∀ (s : State) (off : Nat) (size : AccessSize) (v : Word),
    (off < 0x1000 → size ≠ .word ∨ off % 4 ≠ 0 →
      hostRead off size s = .refused .unsupportedAccess ∧ hostWrite off size v s = .refused .unsupportedAccess) ∧
    (0x1000 ≤ off → hostRead off size s = .fault .outsideWindow ∧ hostWrite off size v s = .fault .outsideWindow)

/-- `CTRL` reads 0. A write with bit 0 = 1 resets the engine, a write with bit 0 = 0 changes nothing; the other bits are
ignored; the reset input does what the soft reset does. All engine state takes its reset value, whatever it was; what the
host has pending and has been told is not engine state (R37, R340, R341; log 6). -/
def Obligations.BothResetSourcesLeaveResetState : Prop :=
  ∀ (s : State) (v : Word),
    s.ReadsWord 0x010 0 ∧
    (v.getLsbD 0 = true → hostWrite 0x010 .word v s =
      .next { State.reset with pending := s.pending, replies := s.replies, draws := s.draws }) ∧
    (v.getLsbD 0 = false → hostWrite 0x010 .word v s = .next s) ∧
    hostAccess .resetInput s =
      .next { State.reset with pending := s.pending, replies := s.replies, draws := s.draws }

/-- What reset leaves (R50): valid bits, contexts, staging registers, `RES`, `DBUF`, the fault record and `CSEQ` at 0, and
`STATUS` reads 0. -/
def Obligations.ResetValues : Prop :=
  (∀ k : FReg, State.reset.fval[k] = false) ∧ (∀ k : PReg, State.reset.pval[k] = false) ∧
  State.reset.res = 0 ∧ State.reset.fv = false ∧ State.reset.fldM = 0 ∧ State.reset.fldNk = 0 ∧
  State.reset.fldK1 = 0 ∧ State.reset.fldK2 = 0 ∧ State.reset.fldK3 = 0 ∧
  State.reset.cfgM = 0 ∧ State.reset.cfgNk = 0 ∧ State.reset.cfgK1 = 0 ∧ State.reset.cfgK2 = 0 ∧
  State.reset.cfgK3 = 0 ∧ State.reset.cv = false ∧ (∀ j : Fin 16, State.reset.dbuf[j] = 0) ∧
  State.reset.nv = false ∧ State.reset.nafLen = 0 ∧ State.reset.nafW = 0 ∧ State.reset.tv = false ∧
  State.reset.tw = 0 ∧ State.reset.fault = false ∧ State.reset.errcode = 0 ∧ State.reset.faultcmd = 0 ∧
  State.reset.cseq = 0 ∧ State.reset.ReadsWord 0x014 0

/-! ### What each command does: system and data movement -/

/-- `NOP` changes nothing but `CSEQ`, in every state; its word is all zero, and any other word of opcode 0 is illegal; a
faulted engine drops it (R253). -/
def Obligations.NopOnlyCounts : Prop :=
  (∀ s : State, exec .nop s = .next { s with cseq := s.cseq + 1 }) ∧
  decode 0x00000000 = .ok .nop ∧
  (∀ w : Word, w >>> 24 = 0 → w ≠ 0 → ∃ e, decode w = .error e) ∧
  (∀ s : State, s.fault = true → hostWrite 0x018 .word 0 s = .next s)

/-- `SETFIELD` (R251, R306): admissible staged values become the field context, a trinomial's `K2` and `K3` being 0, and
every register, the curve context, the NAF buffer and the table become invalid; other staged values raise `BadField`. That
the contents behind the cleared valid bits keep their old values is the model's choice (log 8), not the rule's. -/
def Obligations.SetfieldInstallsFieldContext : Prop :=
  ∀ s : State,
    (2 ≤ s.cfgM.toNat → s.cfgM.toNat ≤ 511 → s.cfgNk = 1 → 0 < s.cfgK1.toNat → s.cfgK1.toNat < s.cfgM.toNat →
      exec .setfield s = .next { s with
        fldM := s.cfgM, fldNk := s.cfgNk, fldK1 := s.cfgK1, fldK2 := 0, fldK3 := 0, fv := true,
        fval := Vector.replicate 16 false, pval := Vector.replicate 8 false, cv := false, nv := false, tv := false,
        cseq := s.cseq + 1 }) ∧
    (2 ≤ s.cfgM.toNat → s.cfgM.toNat ≤ 511 → s.cfgNk = 3 → s.cfgK1.toNat < s.cfgM.toNat →
      s.cfgK2.toNat < s.cfgK1.toNat → s.cfgK3.toNat < s.cfgK2.toNat → 0 < s.cfgK3.toNat →
      exec .setfield s = .next { s with
        fldM := s.cfgM, fldNk := s.cfgNk, fldK1 := s.cfgK1, fldK2 := s.cfgK2, fldK3 := s.cfgK3, fv := true,
        fval := Vector.replicate 16 false, pval := Vector.replicate 8 false, cv := false, nv := false, tv := false,
        cseq := s.cseq + 1 }) ∧
    (s.cfgM.toNat < 2 ∨ 511 < s.cfgM.toNat ∨ (s.cfgNk ≠ 1 ∧ s.cfgNk ≠ 3) ∨
        (s.cfgNk = 1 ∧ ¬(0 < s.cfgK1.toNat ∧ s.cfgK1.toNat < s.cfgM.toNat)) ∨
        (s.cfgNk = 3 ∧ ¬(s.cfgK1.toNat < s.cfgM.toNat ∧ s.cfgK2.toNat < s.cfgK1.toNat ∧
          s.cfgK3.toNat < s.cfgK2.toNat ∧ 0 < s.cfgK3.toNat)) →
      exec .setfield s = .next { s with fault := true, errcode := 0x05, faultcmd := 0x01000000 })

/-- `SETCURVE` (R252, R307): both coefficients reduced become the curve context, points and table become invalid; `b ≡ 0`
raises `BadCurve`. That the contents behind the cleared valid bits keep their old values is the model's choice (log 8), not
the rules'. -/
def Obligations.SetcurveInstallsCurveContext : Prop :=
  ∀ (s : State) (ra rb : FReg), s.fv = true → s.fval[ra] = true → s.fval[rb] = true →
    (red s.fieldCtx s.f[rb].toNat ≠ 0 → exec (.setcurve ra rb) s = .next { s with
      ca := BitVec.ofNat 512 (red s.fieldCtx s.f[ra].toNat), cb := BitVec.ofNat 512 (red s.fieldCtx s.f[rb].toNat),
      cv := true, pval := Vector.replicate 8 false, tv := false, cseq := s.cseq + 1 }) ∧
    (red s.fieldCtx s.f[rb].toNat = 0 → s.Faults (.setcurve ra rb) .badCurve)

/-- `FLOAD`, `FLDI`, `FMOV` write their register and nothing else but `CSEQ`; `FSTORE` writes all 16 words of `DBUF` (R130 to
R133). `FLOAD` and `FLDI` have no source register. -/
def Obligations.DataMovementResults : Prop :=
  ∀ (s : State) (rd ra : FReg) (imm : Nat), s.fv = true →
    exec (.fload rd) s = .next { s with
      f := s.f.set rd (BitVec.ofNat 512 (dbufValue s.dbuf ((s.fldM.toNat + 31) / 32))), fval := s.fval.set rd true,
      cseq := s.cseq + 1 } ∧
    exec (.fldi rd imm) s = .next { s with
      f := s.f.set rd (BitVec.ofNat 512 imm), fval := s.fval.set rd true, cseq := s.cseq + 1 } ∧
    (s.fval[ra] = true →
      exec (.fmov rd ra) s = .next { s with
        f := s.f.set rd s.f[ra], fval := s.fval.set rd true, cseq := s.cseq + 1 } ∧
      exec (.fstore ra) s = .next { s with
        dbuf := Vector.ofFn fun j => s.f[ra].extractLsb' (32 * j.val) 32, cseq := s.cseq + 1 })

/-- A value stored with `FSTORE` and loaded back with `FLOAD`, in a state whose registers fit the field's words, is the
value stored (R23, R130, R131). -/
def Obligations.StoreThenLoadRestoresValue : Prop :=
  ∀ (s t u : State) (ra rd : FReg), s.ContextInv → s.RegisterInv → exec (.fstore ra) s = .next t →
    t.cseq = s.cseq + 1 → exec (.fload rd) t = .next u → u.f[rd] = s.f[ra] ∧ u.fval[rd] = true

/-! ### What each command does: field family -/

/-- The raw field commands write their value to `F[rd]` and change nothing else but `CSEQ`: `FADD`, `FCLRB`, `FSHR` always,
`FSETB` for an index inside the field's words (R134, R142, R143, R145). -/
def Obligations.RawFieldResults : Prop :=
  ∀ (s : State) (rd ra rb : FReg) (imm : Nat), s.fv = true → s.fval[ra] = true →
    (s.fval[rb] = true → exec (.fadd rd ra rb) s = .next { s with
      f := s.f.set rd (s.f[ra] ^^^ s.f[rb]), fval := s.fval.set rd true, cseq := s.cseq + 1 }) ∧
    (imm < 32 * ((s.fldM.toNat + 31) / 32) → exec (.fsetb rd ra imm) s = .next { s with
      f := s.f.set rd (s.f[ra] ||| BitVec.ofNat 512 (2 ^ imm)), fval := s.fval.set rd true, cseq := s.cseq + 1 }) ∧
    exec (.fclrb rd ra imm) s = .next { s with
      f := s.f.set rd (s.f[ra] &&& ~~~(BitVec.ofNat 512 (2 ^ imm))), fval := s.fval.set rd true,
      cseq := s.cseq + 1 } ∧
    exec (.fshr rd ra imm) s = .next { s with
      f := s.f.set rd (s.f[ra] >>> imm), fval := s.fval.set rd true, cseq := s.cseq + 1 }

/-- Bit by bit: `FLOAD` takes each bit below `32·L` from the buffer word that holds it, and clears the others; `FSETB` sets bit `imm` and keeps the others; `FCLRB` clears bit `imm` and keeps the others, an index of 512
or more changing nothing; `FSHR` is the floor of the division by `2^imm`, 0 from 512 up (R130, R142,
R143, R145). -/
def Obligations.BitPrimitivesAreExact : Prop :=
  ∀ (s t : State) (rd ra : FReg) (imm : Nat), s.fv = true → s.fval[ra] = true →
    (exec (.fload rd) s = .next t → ∀ (j : Fin 16) (b : Fin 32), t.f[rd].getLsbD (32 * j.val + b.val) =
      (decide (j.val < (s.fldM.toNat + 31) / 32) && s.dbuf[j].getLsbD b.val)) ∧
    (imm < 512 → imm < 32 * s.fieldWords → exec (.fsetb rd ra imm) s = .next t → ∀ n < 512,
      t.f[rd].getLsbD n = (decide (n = imm) || s.f[ra].getLsbD n)) ∧
    (exec (.fclrb rd ra imm) s = .next t → ∀ n < 512,
      t.f[rd].getLsbD n = (!decide (n = imm) && s.f[ra].getLsbD n)) ∧
    (exec (.fshr rd ra imm) s = .next t → t.f[rd].toNat = s.f[ra].toNat / 2 ^ imm ∧ (512 ≤ imm → t.f[rd] = 0))

/-- The reducing field commands write the value their rule names to `F[rd]` and change nothing else but `CSEQ` (R135 to
R138, R140): `FINV` where the operand has an inverse, `FSOLVE` where the solver has a root. -/
def Obligations.ReducedFieldResults : Prop :=
  ∀ (s : State) (rd ra rb : FReg), s.fv = true → s.fval[ra] = true →
    (s.fval[rb] = true → exec (.fmul rd ra rb) s = .next { s with
      f := s.f.set rd (BitVec.ofNat 512 (red s.fieldCtx (clmul s.f[ra].toNat s.f[rb].toNat))),
      fval := s.fval.set rd true, cseq := s.cseq + 1 }) ∧
    exec (.fsqr rd ra) s = .next { s with
      f := s.f.set rd (BitVec.ofNat 512 (red s.fieldCtx (clmul s.f[ra].toNat s.f[ra].toNat))),
      fval := s.fval.set rd true, cseq := s.cseq + 1 } ∧
    exec (.fred rd ra) s = .next { s with
      f := s.f.set rd (BitVec.ofNat 512 (red s.fieldCtx s.f[ra].toNat)), fval := s.fval.set rd true,
      cseq := s.cseq + 1 } ∧
    (∀ r, finv s.fieldCtx s.f[ra].toNat = .ok r → exec (.finv rd ra) s = .next { s with
      f := s.f.set rd (BitVec.ofNat 512 r), fval := s.fval.set rd true, cseq := s.cseq + 1 }) ∧
    (∀ z, fsolve s.fieldCtx s.f[ra].toNat = .ok z → exec (.fsolve rd ra) s = .next { s with
      f := s.f.set rd (BitVec.ofNat 512 z), fval := s.fval.set rd true, cseq := s.cseq + 1 })

/-- Where the operand has an inverse, `FINV` completes with exactly that inverse, over any modulus the engine admits
(R125, R138). -/
def Obligations.FinvWritesTheInverse : Prop :=
  ∀ (s : State) (rd ra : FReg) (r : Nat), s.ContextInv → s.fv = true → s.fval[ra] = true →
    r < 2 ^ s.fldM.toNat → fmul s.fieldCtx (red s.fieldCtx s.f[ra].toNat) r = 1 →
    exec (.finv rd ra) s = .next { s with
      f := s.f.set rd (BitVec.ofNat 512 r), fval := s.fval.set rd true, cseq := s.cseq + 1 }

/-- The field commands that write `RES`, and `WSIZE`: `RES` takes the small value the rule names, and nothing else changes
but `CSEQ`; `WSIZEI` needs no context (R139, R141, R144, R146 to R148, R222, R223). -/
def Obligations.FieldPredicateResults : Prop :=
  (∀ (s : State) (imm : Nat), exec (.wsizei imm) s =
    .next { s with res := BitVec.ofNat 32 (max 2 (min 16 (wsize imm))), cseq := s.cseq + 1 }) ∧
  ∀ (s : State) (ra rb : FReg) (imm : Nat), s.fv = true → s.fval[ra] = true →
    exec (.ftrace ra) s = .next { s with
      res := BitVec.ofNat 32 (ftrace s.fieldCtx s.f[ra].toNat), cseq := s.cseq + 1 } ∧
    exec (.ftstb ra imm) s = .next { s with
      res := (if imm < 512 ∧ s.f[ra].getLsbD imm = true then 1 else 0), cseq := s.cseq + 1 } ∧
    exec (.fblen ra) s = .next { s with res := BitVec.ofNat 32 (blen s.f[ra].toNat), cseq := s.cseq + 1 } ∧
    exec (.fisz ra) s = .next { s with res := (if s.f[ra] = 0 then 1 else 0), cseq := s.cseq + 1 } ∧
    exec (.wsize ra) s = .next { s with
      res := BitVec.ofNat 32 (max 2 (min 16 (wsize (blen s.f[ra].toNat)))), cseq := s.cseq + 1 } ∧
    (s.fval[rb] = true →
      exec (.feq ra rb) s = .next { s with res := (if s.f[ra] = s.f[rb] then 1 else 0), cseq := s.cseq + 1 } ∧
      exec (.fless ra rb) s = .next { s with
        res := (if blen s.f[ra].toNat < blen s.f[rb].toNat then 1 else 0), cseq := s.cseq + 1 })

/-! ### What each command does: point family -/

/-- The commands that move a point or negate it write the register the rule names and nothing else but `CSEQ` (R180 to R183,
R186). -/
def Obligations.PointMovementResults : Prop :=
  ∀ (s : State), s.fv = true → s.cv = true →
    (∀ (rd : PReg) (ra rb : FReg), s.fval[ra] = true → s.fval[rb] = true →
      exec (.pset rd ra rb) s = .next { s with
        p := s.p.set rd ⟨BitVec.ofNat 512 (red s.fieldCtx s.f[ra].toNat),
          BitVec.ofNat 512 (red s.fieldCtx s.f[rb].toNat)⟩,
        pval := s.pval.set rd true, cseq := s.cseq + 1 }) ∧
    (∀ (rd : FReg) (ra : PReg), s.pval[ra] = true →
      exec (.pgetx rd ra) s = .next { s with
        f := s.f.set rd s.p[ra].x, fval := s.fval.set rd true, cseq := s.cseq + 1 } ∧
      exec (.pgety rd ra) s = .next { s with
        f := s.f.set rd s.p[ra].y, fval := s.fval.set rd true, cseq := s.cseq + 1 }) ∧
    (∀ rd ra : PReg, s.pval[ra] = true →
      exec (.pmov rd ra) s = .next { s with
        p := s.p.set rd s.p[ra], pval := s.pval.set rd true, cseq := s.cseq + 1 } ∧
      exec (.pneg rd ra) s = .next { s with
        p := s.p.set rd ⟨s.p[ra].x, s.p[ra].x ^^^ s.p[ra].y⟩, pval := s.pval.set rd true, cseq := s.cseq + 1 })

/-- The group-law commands write the point of the group law to `P[rd]` and nothing else but `CSEQ`, where the inversions
inside have a value (R184, R185, R227, R228); over a proper field they always have (`PointFunctionsNeverFaultOverProperField`). -/
def Obligations.GroupLawResults : Prop :=
  ∀ (s : State) (rd ra rb : PReg) (imm : Nat) (R : Point), s.fv = true → s.cv = true → s.pval[ra] = true →
    (s.pval[rb] = true → padd s.curveCtx s.p[ra].val s.p[rb].val = .ok R →
      exec (.padd rd ra rb) s = .next { s with
        p := s.p.set rd R.toReg, pval := s.pval.set rd true, cseq := s.cseq + 1 }) ∧
    (padd s.curveCtx s.p[ra].val s.p[ra].val = .ok R →
      exec (.pdbl rd ra) s = .next { s with
        p := s.p.set rd R.toReg, pval := s.pval.set rd true, cseq := s.cseq + 1 }) ∧
    (s.pval[rb] = true →
      (∃ D, padd s.curveCtx s.p[ra].val s.p[ra].val = .ok D ∧ padd s.curveCtx D s.p[rb].val = .ok R) →
      exec (.ptwp rd ra rb) s = .next { s with
        p := s.p.set rd R.toReg, pval := s.pval.set rd true, cseq := s.cseq + 1 }) ∧
    (ptp2 s.curveCtx s.p[ra].val imm = .ok R →
      exec (.ptp2 rd ra imm) s = .next { s with
        p := s.p.set rd R.toReg, pval := s.pval.set rd true, cseq := s.cseq + 1 })

/-- `PCMP` and `PEXP` write the compressed value and the expanded point and nothing else but `CSEQ`, where those have a
value (R187, R188); the identity and 0 always have. -/
def Obligations.CompressionResults : Prop :=
  ∀ (s : State), s.fv = true → s.cv = true →
    (∀ (rd : FReg) (ra : PReg) (c : Nat), s.pval[ra] = true → pcompress s.curveCtx s.p[ra].val = .ok c →
      exec (.pcmp rd ra) s = .next { s with
        f := s.f.set rd (BitVec.ofNat 512 c), fval := s.fval.set rd true, cseq := s.cseq + 1 }) ∧
    (∀ (rd : PReg) (ra : FReg) (R : Point), s.fval[ra] = true → pexpand s.curveCtx s.f[ra].toNat = .ok R →
      exec (.pexp rd ra) s = .next { s with
        p := s.p.set rd R.toReg, pval := s.pval.set rd true, cseq := s.cseq + 1 }) ∧
    (∀ (rd : FReg) (ra : PReg), s.pval[ra] = true → s.p[ra] = ⟨0, 0⟩ →
      exec (.pcmp rd ra) s = .next { s with
        f := s.f.set rd 0, fval := s.fval.set rd true, cseq := s.cseq + 1 }) ∧
    (∀ (rd : PReg) (ra : FReg), s.fval[ra] = true → red s.fieldCtx s.f[ra].toNat = 0 →
      exec (.pexp rd ra) s = .next { s with
        p := s.p.set rd ⟨0, 0⟩, pval := s.pval.set rd true, cseq := s.cseq + 1 })

/-- The point predicates write 1 or 0 to `RES` and change nothing else but `CSEQ`; a failed check is a result, not a fault
(R189 to R191). -/
def Obligations.PointPredicateResults : Prop :=
  ∀ (s : State) (ra rb : PReg), s.fv = true → s.cv = true → s.pval[ra] = true →
    (s.pval[rb] = true → exec (.peq ra rb) s = .next { s with
      res := (if s.p[ra].x = s.p[rb].x ∧ s.p[ra].y = s.p[rb].y then 1 else 0), cseq := s.cseq + 1 }) ∧
    exec (.pisid ra) s = .next { s with
      res := (if s.p[ra].x = 0 ∧ s.p[ra].y = 0 then 1 else 0), cseq := s.cseq + 1 } ∧
    exec (.pchk ra) s = .next { s with
      res := (if pcontains s.curveCtx s.p[ra].val = true then 1 else 0), cseq := s.cseq + 1 }

/-- `PMUL` and `MULPOS` (R192, R226). For the scalar 0 `PMUL` writes the identity and touches neither table nor NAF buffer.
For any other scalar it writes the scan's point, and leaves the table of the operand (of its negative with `NEG`) and the
scalar's NAF; `MULPOS` does the same for every scalar, 0 included. That `overwrite` keeps the entries of the buffers past the
written ones, where nothing can observe them, is the model's choice (log 15), not the rules'. -/
def Obligations.ScalarMultiplicationResults : Prop :=
  ∀ (s : State) (rd ra : PReg) (rb : FReg) (neg : Bool) (Q : PointReg) (r : ScanResult),
    s.fv = true → s.cv = true → s.pval[ra] = true → s.fval[rb] = true →
    (s.f[rb] = 0 → exec (.pmul rd ra rb neg) s = .next { s with
      p := s.p.set rd ⟨0, 0⟩, pval := s.pval.set rd true, cseq := s.cseq + 1 }) ∧
    (s.f[rb] ≠ 0 → Q = (if neg then ⟨s.p[ra].x, s.p[ra].x ^^^ s.p[ra].y⟩ else s.p[ra]) →
      mulpos s.curveCtx Q.val s.f[rb].toNat = .ok r → exec (.pmul rd ra rb neg) s = .next { s with
        tv := true, tw := BitVec.ofNat 8 r.width, tp := Q,
        tpos := overwrite s.tpos (r.tpos.map Point.toReg), tneg := overwrite s.tneg (r.tneg.map Point.toReg),
        nv := true, nafLen := BitVec.ofNat 16 r.naf.length, nafW := BitVec.ofNat 8 r.width,
        naf := overwrite s.naf r.naf,
        p := s.p.set rd r.point.toReg, pval := s.pval.set rd true, cseq := s.cseq + 1 }) ∧
    (mulpos s.curveCtx s.p[ra].val s.f[rb].toNat = .ok r → exec (.mulpos rd ra rb) s = .next { s with
      tv := true, tw := BitVec.ofNat 8 r.width, tp := s.p[ra],
      tpos := overwrite s.tpos (r.tpos.map Point.toReg), tneg := overwrite s.tneg (r.tneg.map Point.toReg),
      nv := true, nafLen := BitVec.ofNat 16 r.naf.length, nafW := BitVec.ofNat 8 r.width,
      naf := overwrite s.naf r.naf,
      p := s.p.set rd r.point.toReg, pval := s.pval.set rd true, cseq := s.cseq + 1 })

/-! ### What each command does: scalar multiplier -/

/-- `WNAF` with a width of 2 to 16 writes the NAF buffer and nothing else but `CSEQ`; `PRECOMP` with a width of 2 to 8 writes
the table and nothing else but `CSEQ`, where the additions inside have a value; `TBLRD` of an index inside the table copies
the entry of the half that `NEG` selects to `P[rd]` (R221, R224, R225). That `overwrite` keeps the entries of the buffers past
the written ones, where nothing can observe them, is the model's choice (log 15): R224 says the table is replaced whole. -/
def Obligations.NafAndTableCommandResults : Prop :=
  ∀ (s : State) (w : Nat), s.fv = true → 2 ≤ w →
    (∀ ra : FReg, s.fval[ra] = true → w ≤ 16 → exec (.wnaf ra w) s = .next { s with
      nv := true, nafLen := BitVec.ofNat 16 (windowNaf w s.f[ra].toNat).length, nafW := BitVec.ofNat 8 w,
      naf := overwrite s.naf (windowNaf w s.f[ra].toNat), cseq := s.cseq + 1 }) ∧
    (∀ (ra : PReg) (T N : List Point), s.cv = true → s.pval[ra] = true → w ≤ 8 →
      precompute s.curveCtx s.p[ra].val w = .ok (T, N) → exec (.precomp ra w) s = .next { s with
        tv := true, tw := BitVec.ofNat 8 w, tp := s.p[ra],
        tpos := overwrite s.tpos (T.map Point.toReg), tneg := overwrite s.tneg (N.map Point.toReg),
        cseq := s.cseq + 1 }) ∧
    (∀ (rd : PReg) (neg : Bool) (idx : Fin 64), s.cv = true → s.tv = true → idx.val < 2 ^ (s.tw.toNat - 2) →
      exec (.tblrd rd neg idx) s = .next { s with
        p := s.p.set rd (if neg then s.tneg[idx] else s.tpos[idx]), pval := s.pval.set rd true,
        cseq := s.cseq + 1 })

/-! ### Faults -/

/-- Every command either completes, moving `CSEQ` by one and leaving the fault record, or faults, changing the fault record
and nothing else; no command stops the machine, and none raises `IllegalCommand` (R41, R310, R316). -/
def Obligations.EveryCommandCompletesOrOnlyFaults : Prop :=
  ∀ (i : Instr) (s : State),
    (∃ t, exec i s = .next t ∧ t.cseq = s.cseq + 1 ∧ t.fault = s.fault ∧ t.errcode = s.errcode ∧
      t.faultcmd = s.faultcmd) ∨
    (∃ c, c ≠ FaultCode.illegalCommand ∧ s.Faults i c)

/-- `NoField` is raised when `FV = 0` and the command is any other than `NOP`, `SETFIELD`, `WSIZEI`, and only then (R303).
`NoCurve` is raised when `FV = 1`, `CV = 0` and the command is one of the eighteen that need a curve, and only then
(R304). -/
def Obligations.ContextFaultsExactly : Prop :=
  ∀ (i : Instr) (s : State),
    (s.Faults i .noField ↔ s.fv = false ∧ i ≠ .nop ∧ i ≠ .setfield ∧ ∀ imm, i ≠ .wsizei imm) ∧
    (s.Faults i .noCurve ↔ s.fv = true ∧ s.cv = false ∧ i.needsCurve = true)

/-- `Uninit` is raised exactly when the contexts the command needs are active and a source register it names is not valid;
`NoTable` exactly by `TBLRD` with both contexts active and `TV = 0`; `Range` exactly when the contexts, the sources and the
table are there and the immediate is not one the command admits (R305, R313 to R315). -/
def Obligations.OperandFaultsExactly : Prop :=
  ∀ (i : Instr) (s : State),
    (s.Faults i .uninit ↔ s.contextsReady i = true ∧ s.sourcesValid i = false) ∧
    (s.Faults i .noTable ↔ i.readsTable = true ∧ s.contextsReady i = true ∧ s.tv = false) ∧
    (s.Faults i .range ↔ s.contextsReady i = true ∧ s.sourcesValid i = true ∧
      (i.readsTable = true → s.tv = true) ∧ s.immediateAdmitted i = false)

/-- The faults of a computation, over any modulus (R128, R125, R308, R309, R311, R315, R316). `Unsupported` is raised exactly by
`FSOLVE`, and by `PEXP` reaching the solver, with even `m`, whatever the operand. `NoRoot` is raised exactly by those with odd
`m` whose half-trace `z` fails `z² + z = a'`. `NoInverse` is raised exactly where the rule's own function meets a value with no
inverse: then the command changes the fault record and nothing else, compound commands included. -/
def Obligations.ComputationFaultsExactly : Prop :=
  ∀ (i : Instr) (s : State),
    (s.Faults i .unsupported ↔
      (∃ rd ra, i = .fsolve rd ra ∧ s.fv = true ∧ s.fval[ra] = true ∧ s.fldM.toNat % 2 = 0) ∨
      (∃ rd ra xi, i = .pexp rd ra ∧ s.fv = true ∧ s.cv = true ∧ s.fval[ra] = true ∧
        red s.fieldCtx s.f[ra].toNat ≠ 0 ∧
        finv s.fieldCtx (expandX s.curveCtx (red s.fieldCtx s.f[ra].toNat)) = .ok xi ∧ s.fldM.toNat % 2 = 0)) ∧
    (s.Faults i .noRoot ↔
      (∃ rd ra a z, i = .fsolve rd ra ∧ s.fv = true ∧ s.fval[ra] = true ∧ s.fldM.toNat % 2 = 1 ∧
        a = red s.fieldCtx s.f[ra].toNat ∧ z = fhtr s.fieldCtx a ∧ fsqr s.fieldCtx z ^^^ z ≠ a) ∨
      (∃ rd ra x xi a z, i = .pexp rd ra ∧ s.fv = true ∧ s.cv = true ∧ s.fval[ra] = true ∧
        red s.fieldCtx s.f[ra].toNat ≠ 0 ∧ x = expandX s.curveCtx (red s.fieldCtx s.f[ra].toNat) ∧
        finv s.fieldCtx x = .ok xi ∧ s.fldM.toNat % 2 = 1 ∧
        a = red s.fieldCtx (x ^^^ s.ca.toNat ^^^ fmul s.fieldCtx s.cb.toNat (fsqr s.fieldCtx xi)) ∧
        z = fhtr s.fieldCtx a ∧ fsqr s.fieldCtx z ^^^ z ≠ a)) ∧
    (s.Faults i .noInverse ↔ s.fv = true ∧
      ((∃ rd ra, i = .finv rd ra ∧ s.fval[ra] = true ∧ finv s.fieldCtx s.f[ra].toNat = .error .noInverse) ∨
      (s.cv = true ∧
        ((∃ rd ra, i = .pcmp rd ra ∧ s.pval[ra] = true ∧
          pcompress s.curveCtx s.p[ra].val = .error .noInverse) ∨
        (∃ rd ra, i = .pexp rd ra ∧ s.fval[ra] = true ∧ red s.fieldCtx s.f[ra].toNat ≠ 0 ∧
          finv s.fieldCtx (expandX s.curveCtx (red s.fieldCtx s.f[ra].toNat)) = .error .noInverse) ∨
        (∃ rd ra rb, i = .padd rd ra rb ∧ s.pval[ra] = true ∧ s.pval[rb] = true ∧
          padd s.curveCtx s.p[ra].val s.p[rb].val = .error .noInverse) ∨
        (∃ rd ra, i = .pdbl rd ra ∧ s.pval[ra] = true ∧
          padd s.curveCtx s.p[ra].val s.p[ra].val = .error .noInverse) ∨
        (∃ rd ra rb, i = .ptwp rd ra rb ∧ s.pval[ra] = true ∧ s.pval[rb] = true ∧
          ptwp s.curveCtx s.p[ra].val s.p[rb].val = .error .noInverse) ∨
        (∃ rd ra imm, i = .ptp2 rd ra imm ∧ s.pval[ra] = true ∧
          ptp2 s.curveCtx s.p[ra].val imm = .error .noInverse) ∨
        (∃ ra w, i = .precomp ra w ∧ s.pval[ra] = true ∧ 2 ≤ w ∧ w ≤ 8 ∧
          precompute s.curveCtx s.p[ra].val w = .error .noInverse) ∨
        (∃ rd ra rb, i = .mulpos rd ra rb ∧ s.pval[ra] = true ∧ s.fval[rb] = true ∧
          mulpos s.curveCtx s.p[ra].val s.f[rb].toNat = .error .noInverse) ∨
        (∃ rd ra rb neg, i = .pmul rd ra rb neg ∧ s.pval[ra] = true ∧ s.fval[rb] = true ∧ s.f[rb] ≠ 0 ∧
          mulpos s.curveCtx (if neg then pneg s.p[ra].val else s.p[ra].val) s.f[rb].toNat =
            .error .noInverse)))))

/-- Over a proper field, with reduced point registers, `NoInverse` is raised by exactly three commands: `FINV` of a value
congruent to 0, `PCMP` of a point with `x = 0` and `y ≠ 0`, `PEXP` of 1 when `ftrace(a) = 0` (R308). -/
def Obligations.NoInverseOnlyFromZeroOverProperField : Prop :=
  ∀ (i : Instr) (s : State), s.ContextInv → s.RegisterInv → s.fieldCtx.Irreducible → (s.Faults i .noInverse ↔
    (∃ rd ra, i = .finv rd ra ∧ s.fv = true ∧ s.fval[ra] = true ∧ red s.fieldCtx s.f[ra].toNat = 0) ∨
    (∃ rd ra, i = .pcmp rd ra ∧ s.pval[ra] = true ∧ s.p[ra].x = 0 ∧ s.p[ra].y ≠ 0) ∨
    (∃ rd ra, i = .pexp rd ra ∧ s.cv = true ∧ s.fval[ra] = true ∧ red s.fieldCtx s.f[ra].toNat = 1 ∧
      ftrace s.fieldCtx s.ca.toNat = 0))

/-- While `FAULT = 1` no step changes the fault record or `CSEQ`, unless the host's access resets the engine: the record
always describes the first fault since reset (R36, R312, R317, R318). -/
def Obligations.FaultRecordIsSticky : Prop :=
  ∀ s t : State, s.fault = true → step s = .next t →
    (t.fault = true ∧ t.errcode = s.errcode ∧ t.faultcmd = s.faultcmd ∧ t.cseq = s.cseq) ∨
    (∃ a rest, s.pending = a :: rest ∧ a.resets = true ∧ t.fault = false ∧ t.errcode = 0 ∧ t.faultcmd = 0)

/-! ### What no command changes -/

/-- Which state a command can change at all (R22, R25, R28 to R34): a field or point register that is not its destination
keeps its contents, and its valid bit unless a context is replaced; `RES`, `DBUF`, the contexts, the NAF buffer and the
table change by the listed commands only; the staging registers and the host's side of the bus by none. That contents also
stay when `SETFIELD` or `SETCURVE` clears the valid bit before them is the model's choice (log 8), not the rules'. -/
def Obligations.CommandsChangeOnlyTheirTargets : Prop :=
  ∀ (i : Instr) (s t : State), exec i s = .next t →
    (∀ k, i.destF ≠ some k → t.f[k] = s.f[k] ∧ (i ≠ .setfield → t.fval[k] = s.fval[k])) ∧
    (∀ k, i.destP ≠ some k → t.p[k] = s.p[k] ∧
      (i ≠ .setfield → (∀ ra rb, i ≠ .setcurve ra rb) → t.pval[k] = s.pval[k])) ∧
    (i.writesRes = false → t.res = s.res) ∧
    ((∀ ra, i ≠ .fstore ra) → t.dbuf = s.dbuf) ∧
    (i ≠ .setfield → t.fv = s.fv ∧ t.fldM = s.fldM ∧ t.fldNk = s.fldNk ∧ t.fldK1 = s.fldK1 ∧ t.fldK2 = s.fldK2 ∧
      t.fldK3 = s.fldK3) ∧
    ((∀ ra rb, i ≠ .setcurve ra rb) → t.ca = s.ca ∧ t.cb = s.cb ∧ (i ≠ .setfield → t.cv = s.cv)) ∧
    (i.writesNaf = false → t.nafLen = s.nafLen ∧ t.nafW = s.nafW ∧ t.naf = s.naf ∧ (i ≠ .setfield → t.nv = s.nv)) ∧
    (i.writesTable = false → t.tw = s.tw ∧ t.tp = s.tp ∧ t.tpos = s.tpos ∧ t.tneg = s.tneg ∧
      (i ≠ .setfield → (∀ ra rb, i ≠ .setcurve ra rb) → t.tv = s.tv)) ∧
    (t.cfgM = s.cfgM ∧ t.cfgNk = s.cfgNk ∧ t.cfgK1 = s.cfgK1 ∧ t.cfgK2 = s.cfgK2 ∧ t.cfgK3 = s.cfgK3) ∧
    (t.pending = s.pending ∧ t.replies = s.replies ∧ t.draws = s.draws)

/-! ### Field arithmetic -/

/-- The carry-less product (R121): bit `n` is the parity of the products of bits whose positions add to `n`; it is
commutative, 0, 1 and the powers of 2 act as they should, and 512-bit operands give less than `2^1023`. -/
def Obligations.ClmulIsCarrylessProduct : Prop :=
  ∀ a b : Nat,
    (∀ n, (clmul a b).testBit n =
      (List.range (n + 1)).foldl (fun acc i => acc ^^ (a.testBit i && b.testBit (n - i))) false) ∧
    clmul a b = clmul b a ∧ clmul a 0 = 0 ∧ clmul a 1 = a ∧ (∀ i, clmul a (2 ^ i) = a <<< i) ∧
    (a < 2 ^ 512 → b < 2 ^ 512 → clmul a b < 2 ^ 1023)

/-- Reduction (R122): `red v` is below `2^m`, differs from `v` by a multiple of the modulus, and is the only such value;
reduced values stay, the modulus gives 0, and `2^m` gives the modulus without its leading term. -/
def Obligations.RedIsTheUniqueResidue : Prop :=
  ∀ (K : FieldCtx) (v : Nat), K.Sound →
    red K v < 2 ^ K.m ∧ (∃ q, v ^^^ red K v = clmul q K.f) ∧
    (∀ r q, r < 2 ^ K.m → v ^^^ r = clmul q K.f → r = red K v) ∧
    (v < 2 ^ K.m → red K v = v) ∧ red K K.f = 0 ∧ red K (2 ^ K.m) = K.tail

/-- Multiplication (R123): the result is reduced, depends only on the residues, has 1 and 0 as unit and zero, and with XOR
makes the residues a commutative ring, whatever the modulus. -/
def Obligations.FmulIsRingMultiplication : Prop :=
  ∀ (K : FieldCtx) (a b c : Nat), K.Sound →
    fmul K a b < 2 ^ K.m ∧ fmul K a b = fmul K (red K a) (red K b) ∧ fmul K a 1 = red K a ∧ fmul K a 0 = 0 ∧
    fmul K a b = fmul K b a ∧ fmul K (fmul K a b) c = fmul K a (fmul K b c) ∧
    fmul K a (b ^^^ c) = fmul K a b ^^^ fmul K a c ∧ red K (a ^^^ b) = red K a ^^^ red K b

/-- Inversion (R125): the answer is the one `r < 2^m` with `fmul(a', r) = 1`; `NoInverse` is raised exactly when there is
none; over an irreducible modulus that is exactly when the operand is congruent to 0. -/
def Obligations.FinvIsExact : Prop :=
  ∀ (K : FieldCtx) (a : Nat), K.Sound →
    (∀ r, finv K a = .ok r ↔ r < 2 ^ K.m ∧ fmul K (red K a) r = 1) ∧
    (finv K a = .error .noInverse ↔ ¬∃ r < 2 ^ K.m, fmul K (red K a) r = 1) ∧
    (K.Irreducible → (finv K a = .error .noInverse ↔ red K a = 0))

/-- The trace is a bit, GF(2)-linear, and `m mod 2` at 1; squaring is linear (R126, R136). The rule states the first
three for an irreducible modulus; they hold for any. -/
def Obligations.TraceIsLinear : Prop :=
  ∀ (K : FieldCtx) (a b : Nat), K.Sound →
    ftrace K a < 2 ∧ ftrace K (a ^^^ b) = (ftrace K a + ftrace K b) % 2 ∧ ftrace K 1 = K.m % 2 ∧
    fsqr K (a ^^^ b) = fsqr K a ^^^ fsqr K b

/-- The trace and the solver (R126 to R128, R311). Over a proper field of any degree the trace of `a` is 0 exactly when
`z² + z = a'` has a root. With odd degree the solver raises `NoRoot` exactly for operands of trace 1, and otherwise answers a
root. With even degree it raises `Unsupported` whatever the operand. -/
def Obligations.FsolveDecidesByTrace : Prop :=
  ∀ (K : FieldCtx) (a : Nat),
    (K.m % 2 = 0 → fsolve K a = .error .unsupported) ∧
    (K.Proper → (ftrace K a = 0 ↔ ∃ z < 2 ^ K.m, fsqr K z ^^^ z = red K a)) ∧
    (K.Proper → K.m % 2 = 1 →
      (fsolve K a = .error .noRoot ↔ ftrace K a = 1) ∧
      (ftrace K a = 0 → ∃ z < 2 ^ K.m, fsolve K a = .ok z ∧ fsqr K z ^^^ z = red K a))

/-! ### Point arithmetic -/

/-- The group laws (R172, R173, R193): an identity operand gives the other one back, a point and its negative give the
identity, doubling is adding a point to itself, negation is its own inverse, and on reduced coordinates the addition is
commutative. -/
def Obligations.GroupLawsOfPadd : Prop :=
  ∀ (C : CurveCtx) (P Q : Point),
    padd C P Point.identity = .ok P ∧ padd C Point.identity P = .ok P ∧ padd C P (pneg P) = .ok Point.identity ∧
    pdbl C P = padd C P P ∧ pneg (pneg P) = P ∧ pneg Point.identity = Point.identity ∧
    (P.x = 0 → pneg P = P ∧ pdbl C P = .ok Point.identity) ∧
    (C.Sound → P.Reduced C.fld → Q.Reduced C.fld → padd C P Q = padd C Q P)

/-- The sum of two points of the curve, where it has a value, is a point of the curve, and so is a negative; an expanded
point is on the curve whenever there is no fault: all over any modulus (R171, R173, R177, R178, R188). -/
def Obligations.PointResultsStayOnCurve : Prop :=
  ∀ (C : CurveCtx) (P Q R : Point) (c : Nat), C.Sound →
    (OnCurve C P → OnCurve C (pneg P)) ∧
    (OnCurve C P → OnCurve C Q → padd C P Q = .ok R → OnCurve C R) ∧
    (pexpand C c = .ok R → OnCurve C R)

/-- Compressing and expanding gives the point back, over a proper field of odd degree, for the identity and for every curve
point with `x ≠ 0` and `ftrace(x) = ftrace(a)` whose compressed value is not 0 (R176, R177, R194). The last condition is
this model's finding: without it the claim fails (`RoundTripWithoutSideCondition`, log 9). -/
def Obligations.CompressExpandRoundTrip : Prop :=
  ∀ (C : CurveCtx) (P : Point), C.Proper → C.fld.m % 2 = 1 → OnCurve C P →
    (P = Point.identity → pcompress C P = .ok 0 ∧ pexpand C 0 = .ok P) ∧
    (P.x ≠ 0 → ftrace C.fld P.x = ftrace C.fld C.a →
      ∃ c, pcompress C P = .ok c ∧ (c ≠ 0 → pexpand C c = .ok P))

/-- The round trip as R194 words it, with no condition on the compressed value. It FAILS: a curve point with `x = 1` and
trace 0 of `y` compresses to 0, which expands to the identity by the convention of R177 (log 9). -/
def Obligations.RoundTripWithoutSideCondition : Prop :=
  ∀ (C : CurveCtx) (P : Point) (c : Nat), C.Proper → C.fld.m % 2 = 1 → pcontains C P = true → P.Reduced C.fld →
    P.x ≠ 0 → ftrace C.fld P.x = ftrace C.fld C.a → pcompress C P = .ok c → pexpand C c = .ok P

/-- Over a proper field no point function faults on reduced operands but at an inversion of 0: addition, doubling,
repeated doubling, every entry of the table and the point of the whole scan always have a value, and it is reduced; a point
with `x ≠ 0` always compresses (R171, R176, R218, R219, R308). -/
def Obligations.PointFunctionsNeverFaultOverProperField : Prop :=
  ∀ (C : CurveCtx) (P Q : Point) (e k : Nat), C.Proper → P.Reduced C.fld → Q.Reduced C.fld → k < 2 ^ 512 →
    (∃ R, padd C P Q = .ok R ∧ R.Reduced C.fld) ∧
    (∃ R, ptwp C P Q = .ok R ∧ R.Reduced C.fld) ∧
    (∃ R, ptp2 C P e = .ok R ∧ R.Reduced C.fld) ∧
    (∀ w, 2 ≤ w → w ≤ 8 → ∃ T N, precompute C P w = .ok (T, N) ∧ ∀ A ∈ T ++ N, A.Reduced C.fld) ∧
    (∃ r, mulpos C P k = .ok r ∧ r.point.Reduced C.fld) ∧
    (P.x ≠ 0 → ∃ c, pcompress C P = .ok c)

/-! ### Windows, NAF, table, scan -/

/-- The window width (R211, R212): the table of the rule, over every bit length, and the clamp that changes nothing. -/
def Obligations.WindowSizeTable : Prop :=
  ∀ bits : Nat,
    (bits ≤ 12 → wsize bits = 2) ∧ (13 ≤ bits → bits ≤ 40 → wsize bits = 3) ∧
    (41 ≤ bits → bits ≤ 120 → wsize bits = 4) ∧ (121 ≤ bits → bits ≤ 336 → wsize bits = 5) ∧
    (337 ≤ bits → bits ≤ 896 → wsize bits = 6) ∧ (897 ≤ bits → bits ≤ 2304 → wsize bits = 7) ∧
    (2305 ≤ bits → wsize bits = 8) ∧ wclamp (wsize bits) = wsize bits

/-- The packed array that the recoding produces is the width-`w` NAF of its scalar (R214): it stands for the scalar, every
digit is odd and below `2^(w-1)` in magnitude, every entry but the first has at least `w - 1` zeros, the top digit is
positive, and the array of 0 is empty. -/
def Obligations.NafStandsForScalar : Prop :=
  ∀ (w k : Nat), 2 ≤ w → w ≤ 16 → k < 2 ^ 512 →
    nafValue (windowNaf w k) = (k : Int) ∧
    (∀ e ∈ windowNaf w k, digitOf e % 2 = 1 ∧ (digitOf e).natAbs < 2 ^ (w - 1)) ∧
    (∀ e ∈ (windowNaf w k).tail, w - 1 ≤ zerosOf e) ∧
    (∀ e, (windowNaf w k).getLast? = some e → 0 < digitOf e) ∧
    (windowNaf w k = [] ↔ k = 0)

/-- The bounds of the packed array (R217): how many entries it has, so that it fits the NAF buffer, and how large the digit
and the zeros of an entry are. A digit and a count of zeros inside those bounds are read back from their packed word as
they were put in (R213). -/
def Obligations.NafFitsItsBuffer : Prop :=
  (∀ (w k : Nat), 2 ≤ w → w ≤ 16 → k < 2 ^ 512 →
    (w = 2 → (windowNaf w k).length ≤ blen (3 * k) / 2 ∧ blen (3 * k) / 2 ≤ 257) ∧
    (windowNaf w k).length ≤ 257 ∧ (3 ≤ w → (windowNaf w k).length ≤ blen k / w + 1) ∧
    ∀ e ∈ windowNaf w k, zerosOf e ≤ blen k + 1 ∧ (digitOf e).natAbs ≤ 2 ^ (w - 1) - 1) ∧
  ∀ (d : Int) (z : Nat), d.natAbs ≤ 32767 → z ≤ 513 → digitOf (pack d z) = d ∧ zerosOf (pack d z) = z

/-- The table holds the odd multiples as the rule builds them, in order: the first entry is `P`, each later one the one
before plus `2P`, `2^(w-2)` of them, and the negated half holds their negatives (R219). -/
def Obligations.PrecomputeBuildsOddMultiples : Prop :=
  ∀ (C : CurveCtx) (P : Point) (w : Nat) (T N : List Point), 2 ≤ w → precompute C P w = .ok (T, N) →
    T.length = 2 ^ (w - 2) ∧ T[0]? = some P ∧ N = T.map pneg ∧
    ∀ (j : Nat) (A B : Point), T[j]? = some A → T[j + 1]? = some B →
      ∃ D, padd C P P = .ok D ∧ padd C A D = .ok B

/-- The scan computes the scalar multiple (R218, R231): wherever the addition of the engine is the addition of a commutative
group, with the identity and the negation of the engine as its own, `mulpos` of a group element's point and a 512-bit
scalar has a value, and its point is that of the scalar multiple. That the curve's points form such a group is general
mathematics the spec marks as not its own (R193); it is the premise here, not a claim. -/
def Obligations.ScanComputesScalarMultiple : Prop :=
  ∀ (A : Type) [AddCommGroup A] (C : CurveCtx) (φ : A → Point), φ 0 = Point.identity →
    (∀ x, pneg (φ x) = φ (-x)) → (∀ x y, padd C (φ x) (φ y) = .ok (φ (x + y))) →
    ∀ (g : A) (k : Nat), k < 2 ^ 512 →
      ∃ r, mulpos C (φ g) k = .ok r ∧ r.point = φ (k • g) ∧ r.naf = windowNaf r.width k

/-! ### Invariants -/

/-- All invariants hold of the reset state (R50). -/
def Obligations.ResetMeetsInvariants : Prop :=
  State.reset.ContextInv ∧ State.reset.RegisterInv ∧ State.reset.NafInv ∧ State.reset.TableInv ∧ State.reset.FaultInv

/-- Every step keeps what the valid bits of the contexts promise (R29, R31, R22, R25, R33, R34). -/
def Obligations.StepKeepsContextInvariant : Prop :=
  ∀ s t : State, s.ContextInv → step s = .next t → t.ContextInv

/-- Every step keeps the bounds of the registers: valid field registers fit the field's words, valid points and table
entries are reduced (R23, R26). -/
def Obligations.StepKeepsRegisterInvariant : Prop :=
  ∀ s t : State, s.ContextInv → s.RegisterInv → step s = .next t → t.RegisterInv

/-- Every step keeps the NAF buffer the recoding of some scalar (R33, R217). -/
def Obligations.StepKeepsNafInvariant : Prop :=
  ∀ s t : State, s.NafInv → step s = .next t → t.NafInv

/-- Every step keeps the table the one R219 computes from `TP` and `TW` (R34, R220). -/
def Obligations.StepKeepsTableInvariant : Prop :=
  ∀ s t : State, s.TableInv → step s = .next t → t.TableInv

/-- Every step keeps the fault record well formed: empty, or a cause of R301 with a word that fits it (R36, R302). -/
def Obligations.StepKeepsFaultInvariant : Prop :=
  ∀ s t : State, s.FaultInv → step s = .next t → t.FaultInv

/-- What is not state cannot be seen (R22, R25, R34, R341): two states that differ only in unobservable contents take steps
with the same outcome, again to states that differ only so; every value returned to the host is the same. -/
def Obligations.UnobservableContentsNeverMatter : Prop :=
  ∀ s t : State, s.SameObservable t → SameOutcome State.SameObservable (step s) (step t)
end

