-- ==== Sys2Proof/Laws/State.lean ====
section
/-! SUPPORT. One lemma per field per state update, true by unfolding: what each named write of `Machine/Ops.lean` sets and
what it leaves. Later proofs rewrite with these and never unfold a record update. -/

namespace Sys2Proof.Machine

variable (s : State)

/-! ### `writeF` -/

@[simp] theorem State.writeF_f (rd : FReg) (v : FVal) : (s.writeF rd v).f = s.f.set rd v := rfl
@[simp] theorem State.writeF_fval (rd : FReg) (v : FVal) : (s.writeF rd v).fval = s.fval.set rd true := rfl
@[simp] theorem State.writeF_p (rd : FReg) (v : FVal) : (s.writeF rd v).p = s.p := rfl
@[simp] theorem State.writeF_pval (rd : FReg) (v : FVal) : (s.writeF rd v).pval = s.pval := rfl
@[simp] theorem State.writeF_res (rd : FReg) (v : FVal) : (s.writeF rd v).res = s.res := rfl
@[simp] theorem State.writeF_fv (rd : FReg) (v : FVal) : (s.writeF rd v).fv = s.fv := rfl
@[simp] theorem State.writeF_fldM (rd : FReg) (v : FVal) : (s.writeF rd v).fldM = s.fldM := rfl
@[simp] theorem State.writeF_fldNk (rd : FReg) (v : FVal) : (s.writeF rd v).fldNk = s.fldNk := rfl
@[simp] theorem State.writeF_fldK1 (rd : FReg) (v : FVal) : (s.writeF rd v).fldK1 = s.fldK1 := rfl
@[simp] theorem State.writeF_fldK2 (rd : FReg) (v : FVal) : (s.writeF rd v).fldK2 = s.fldK2 := rfl
@[simp] theorem State.writeF_fldK3 (rd : FReg) (v : FVal) : (s.writeF rd v).fldK3 = s.fldK3 := rfl
@[simp] theorem State.writeF_cfgM (rd : FReg) (v : FVal) : (s.writeF rd v).cfgM = s.cfgM := rfl
@[simp] theorem State.writeF_cfgNk (rd : FReg) (v : FVal) : (s.writeF rd v).cfgNk = s.cfgNk := rfl
@[simp] theorem State.writeF_cfgK1 (rd : FReg) (v : FVal) : (s.writeF rd v).cfgK1 = s.cfgK1 := rfl
@[simp] theorem State.writeF_cfgK2 (rd : FReg) (v : FVal) : (s.writeF rd v).cfgK2 = s.cfgK2 := rfl
@[simp] theorem State.writeF_cfgK3 (rd : FReg) (v : FVal) : (s.writeF rd v).cfgK3 = s.cfgK3 := rfl
@[simp] theorem State.writeF_cv (rd : FReg) (v : FVal) : (s.writeF rd v).cv = s.cv := rfl
@[simp] theorem State.writeF_ca (rd : FReg) (v : FVal) : (s.writeF rd v).ca = s.ca := rfl
@[simp] theorem State.writeF_cb (rd : FReg) (v : FVal) : (s.writeF rd v).cb = s.cb := rfl
@[simp] theorem State.writeF_dbuf (rd : FReg) (v : FVal) : (s.writeF rd v).dbuf = s.dbuf := rfl
@[simp] theorem State.writeF_nv (rd : FReg) (v : FVal) : (s.writeF rd v).nv = s.nv := rfl
@[simp] theorem State.writeF_nafLen (rd : FReg) (v : FVal) : (s.writeF rd v).nafLen = s.nafLen := rfl
@[simp] theorem State.writeF_nafW (rd : FReg) (v : FVal) : (s.writeF rd v).nafW = s.nafW := rfl
@[simp] theorem State.writeF_naf (rd : FReg) (v : FVal) : (s.writeF rd v).naf = s.naf := rfl
@[simp] theorem State.writeF_tv (rd : FReg) (v : FVal) : (s.writeF rd v).tv = s.tv := rfl
@[simp] theorem State.writeF_tw (rd : FReg) (v : FVal) : (s.writeF rd v).tw = s.tw := rfl
@[simp] theorem State.writeF_tp (rd : FReg) (v : FVal) : (s.writeF rd v).tp = s.tp := rfl
@[simp] theorem State.writeF_tpos (rd : FReg) (v : FVal) : (s.writeF rd v).tpos = s.tpos := rfl
@[simp] theorem State.writeF_tneg (rd : FReg) (v : FVal) : (s.writeF rd v).tneg = s.tneg := rfl
@[simp] theorem State.writeF_fault (rd : FReg) (v : FVal) : (s.writeF rd v).fault = s.fault := rfl
@[simp] theorem State.writeF_errcode (rd : FReg) (v : FVal) : (s.writeF rd v).errcode = s.errcode := rfl
@[simp] theorem State.writeF_faultcmd (rd : FReg) (v : FVal) : (s.writeF rd v).faultcmd = s.faultcmd := rfl
@[simp] theorem State.writeF_cseq (rd : FReg) (v : FVal) : (s.writeF rd v).cseq = s.cseq := rfl
@[simp] theorem State.writeF_pending (rd : FReg) (v : FVal) : (s.writeF rd v).pending = s.pending := rfl
@[simp] theorem State.writeF_replies (rd : FReg) (v : FVal) : (s.writeF rd v).replies = s.replies := rfl
@[simp] theorem State.writeF_draws (rd : FReg) (v : FVal) : (s.writeF rd v).draws = s.draws := rfl

/-! ### `writeP` -/

@[simp] theorem State.writeP_f (rd : PReg) (v : PointReg) : (s.writeP rd v).f = s.f := rfl
@[simp] theorem State.writeP_fval (rd : PReg) (v : PointReg) : (s.writeP rd v).fval = s.fval := rfl
@[simp] theorem State.writeP_p (rd : PReg) (v : PointReg) : (s.writeP rd v).p = s.p.set rd v := rfl
@[simp] theorem State.writeP_pval (rd : PReg) (v : PointReg) : (s.writeP rd v).pval = s.pval.set rd true := rfl
@[simp] theorem State.writeP_res (rd : PReg) (v : PointReg) : (s.writeP rd v).res = s.res := rfl
@[simp] theorem State.writeP_fv (rd : PReg) (v : PointReg) : (s.writeP rd v).fv = s.fv := rfl
@[simp] theorem State.writeP_fldM (rd : PReg) (v : PointReg) : (s.writeP rd v).fldM = s.fldM := rfl
@[simp] theorem State.writeP_fldNk (rd : PReg) (v : PointReg) : (s.writeP rd v).fldNk = s.fldNk := rfl
@[simp] theorem State.writeP_fldK1 (rd : PReg) (v : PointReg) : (s.writeP rd v).fldK1 = s.fldK1 := rfl
@[simp] theorem State.writeP_fldK2 (rd : PReg) (v : PointReg) : (s.writeP rd v).fldK2 = s.fldK2 := rfl
@[simp] theorem State.writeP_fldK3 (rd : PReg) (v : PointReg) : (s.writeP rd v).fldK3 = s.fldK3 := rfl
@[simp] theorem State.writeP_cfgM (rd : PReg) (v : PointReg) : (s.writeP rd v).cfgM = s.cfgM := rfl
@[simp] theorem State.writeP_cfgNk (rd : PReg) (v : PointReg) : (s.writeP rd v).cfgNk = s.cfgNk := rfl
@[simp] theorem State.writeP_cfgK1 (rd : PReg) (v : PointReg) : (s.writeP rd v).cfgK1 = s.cfgK1 := rfl
@[simp] theorem State.writeP_cfgK2 (rd : PReg) (v : PointReg) : (s.writeP rd v).cfgK2 = s.cfgK2 := rfl
@[simp] theorem State.writeP_cfgK3 (rd : PReg) (v : PointReg) : (s.writeP rd v).cfgK3 = s.cfgK3 := rfl
@[simp] theorem State.writeP_cv (rd : PReg) (v : PointReg) : (s.writeP rd v).cv = s.cv := rfl
@[simp] theorem State.writeP_ca (rd : PReg) (v : PointReg) : (s.writeP rd v).ca = s.ca := rfl
@[simp] theorem State.writeP_cb (rd : PReg) (v : PointReg) : (s.writeP rd v).cb = s.cb := rfl
@[simp] theorem State.writeP_dbuf (rd : PReg) (v : PointReg) : (s.writeP rd v).dbuf = s.dbuf := rfl
@[simp] theorem State.writeP_nv (rd : PReg) (v : PointReg) : (s.writeP rd v).nv = s.nv := rfl
@[simp] theorem State.writeP_nafLen (rd : PReg) (v : PointReg) : (s.writeP rd v).nafLen = s.nafLen := rfl
@[simp] theorem State.writeP_nafW (rd : PReg) (v : PointReg) : (s.writeP rd v).nafW = s.nafW := rfl
@[simp] theorem State.writeP_naf (rd : PReg) (v : PointReg) : (s.writeP rd v).naf = s.naf := rfl
@[simp] theorem State.writeP_tv (rd : PReg) (v : PointReg) : (s.writeP rd v).tv = s.tv := rfl
@[simp] theorem State.writeP_tw (rd : PReg) (v : PointReg) : (s.writeP rd v).tw = s.tw := rfl
@[simp] theorem State.writeP_tp (rd : PReg) (v : PointReg) : (s.writeP rd v).tp = s.tp := rfl
@[simp] theorem State.writeP_tpos (rd : PReg) (v : PointReg) : (s.writeP rd v).tpos = s.tpos := rfl
@[simp] theorem State.writeP_tneg (rd : PReg) (v : PointReg) : (s.writeP rd v).tneg = s.tneg := rfl
@[simp] theorem State.writeP_fault (rd : PReg) (v : PointReg) : (s.writeP rd v).fault = s.fault := rfl
@[simp] theorem State.writeP_errcode (rd : PReg) (v : PointReg) : (s.writeP rd v).errcode = s.errcode := rfl
@[simp] theorem State.writeP_faultcmd (rd : PReg) (v : PointReg) : (s.writeP rd v).faultcmd = s.faultcmd := rfl
@[simp] theorem State.writeP_cseq (rd : PReg) (v : PointReg) : (s.writeP rd v).cseq = s.cseq := rfl
@[simp] theorem State.writeP_pending (rd : PReg) (v : PointReg) : (s.writeP rd v).pending = s.pending := rfl
@[simp] theorem State.writeP_replies (rd : PReg) (v : PointReg) : (s.writeP rd v).replies = s.replies := rfl
@[simp] theorem State.writeP_draws (rd : PReg) (v : PointReg) : (s.writeP rd v).draws = s.draws := rfl

/-! ### `writeRes` -/

@[simp] theorem State.writeRes_f (v : Word) : (s.writeRes v).f = s.f := rfl
@[simp] theorem State.writeRes_fval (v : Word) : (s.writeRes v).fval = s.fval := rfl
@[simp] theorem State.writeRes_p (v : Word) : (s.writeRes v).p = s.p := rfl
@[simp] theorem State.writeRes_pval (v : Word) : (s.writeRes v).pval = s.pval := rfl
@[simp] theorem State.writeRes_res (v : Word) : (s.writeRes v).res = v := rfl
@[simp] theorem State.writeRes_fv (v : Word) : (s.writeRes v).fv = s.fv := rfl
@[simp] theorem State.writeRes_fldM (v : Word) : (s.writeRes v).fldM = s.fldM := rfl
@[simp] theorem State.writeRes_fldNk (v : Word) : (s.writeRes v).fldNk = s.fldNk := rfl
@[simp] theorem State.writeRes_fldK1 (v : Word) : (s.writeRes v).fldK1 = s.fldK1 := rfl
@[simp] theorem State.writeRes_fldK2 (v : Word) : (s.writeRes v).fldK2 = s.fldK2 := rfl
@[simp] theorem State.writeRes_fldK3 (v : Word) : (s.writeRes v).fldK3 = s.fldK3 := rfl
@[simp] theorem State.writeRes_cfgM (v : Word) : (s.writeRes v).cfgM = s.cfgM := rfl
@[simp] theorem State.writeRes_cfgNk (v : Word) : (s.writeRes v).cfgNk = s.cfgNk := rfl
@[simp] theorem State.writeRes_cfgK1 (v : Word) : (s.writeRes v).cfgK1 = s.cfgK1 := rfl
@[simp] theorem State.writeRes_cfgK2 (v : Word) : (s.writeRes v).cfgK2 = s.cfgK2 := rfl
@[simp] theorem State.writeRes_cfgK3 (v : Word) : (s.writeRes v).cfgK3 = s.cfgK3 := rfl
@[simp] theorem State.writeRes_cv (v : Word) : (s.writeRes v).cv = s.cv := rfl
@[simp] theorem State.writeRes_ca (v : Word) : (s.writeRes v).ca = s.ca := rfl
@[simp] theorem State.writeRes_cb (v : Word) : (s.writeRes v).cb = s.cb := rfl
@[simp] theorem State.writeRes_dbuf (v : Word) : (s.writeRes v).dbuf = s.dbuf := rfl
@[simp] theorem State.writeRes_nv (v : Word) : (s.writeRes v).nv = s.nv := rfl
@[simp] theorem State.writeRes_nafLen (v : Word) : (s.writeRes v).nafLen = s.nafLen := rfl
@[simp] theorem State.writeRes_nafW (v : Word) : (s.writeRes v).nafW = s.nafW := rfl
@[simp] theorem State.writeRes_naf (v : Word) : (s.writeRes v).naf = s.naf := rfl
@[simp] theorem State.writeRes_tv (v : Word) : (s.writeRes v).tv = s.tv := rfl
@[simp] theorem State.writeRes_tw (v : Word) : (s.writeRes v).tw = s.tw := rfl
@[simp] theorem State.writeRes_tp (v : Word) : (s.writeRes v).tp = s.tp := rfl
@[simp] theorem State.writeRes_tpos (v : Word) : (s.writeRes v).tpos = s.tpos := rfl
@[simp] theorem State.writeRes_tneg (v : Word) : (s.writeRes v).tneg = s.tneg := rfl
@[simp] theorem State.writeRes_fault (v : Word) : (s.writeRes v).fault = s.fault := rfl
@[simp] theorem State.writeRes_errcode (v : Word) : (s.writeRes v).errcode = s.errcode := rfl
@[simp] theorem State.writeRes_faultcmd (v : Word) : (s.writeRes v).faultcmd = s.faultcmd := rfl
@[simp] theorem State.writeRes_cseq (v : Word) : (s.writeRes v).cseq = s.cseq := rfl
@[simp] theorem State.writeRes_pending (v : Word) : (s.writeRes v).pending = s.pending := rfl
@[simp] theorem State.writeRes_replies (v : Word) : (s.writeRes v).replies = s.replies := rfl
@[simp] theorem State.writeRes_draws (v : Word) : (s.writeRes v).draws = s.draws := rfl

/-! ### `writeDbuf` -/

@[simp] theorem State.writeDbuf_f (v : Vector Word 16) : (s.writeDbuf v).f = s.f := rfl
@[simp] theorem State.writeDbuf_fval (v : Vector Word 16) : (s.writeDbuf v).fval = s.fval := rfl
@[simp] theorem State.writeDbuf_p (v : Vector Word 16) : (s.writeDbuf v).p = s.p := rfl
@[simp] theorem State.writeDbuf_pval (v : Vector Word 16) : (s.writeDbuf v).pval = s.pval := rfl
@[simp] theorem State.writeDbuf_res (v : Vector Word 16) : (s.writeDbuf v).res = s.res := rfl
@[simp] theorem State.writeDbuf_fv (v : Vector Word 16) : (s.writeDbuf v).fv = s.fv := rfl
@[simp] theorem State.writeDbuf_fldM (v : Vector Word 16) : (s.writeDbuf v).fldM = s.fldM := rfl
@[simp] theorem State.writeDbuf_fldNk (v : Vector Word 16) : (s.writeDbuf v).fldNk = s.fldNk := rfl
@[simp] theorem State.writeDbuf_fldK1 (v : Vector Word 16) : (s.writeDbuf v).fldK1 = s.fldK1 := rfl
@[simp] theorem State.writeDbuf_fldK2 (v : Vector Word 16) : (s.writeDbuf v).fldK2 = s.fldK2 := rfl
@[simp] theorem State.writeDbuf_fldK3 (v : Vector Word 16) : (s.writeDbuf v).fldK3 = s.fldK3 := rfl
@[simp] theorem State.writeDbuf_cfgM (v : Vector Word 16) : (s.writeDbuf v).cfgM = s.cfgM := rfl
@[simp] theorem State.writeDbuf_cfgNk (v : Vector Word 16) : (s.writeDbuf v).cfgNk = s.cfgNk := rfl
@[simp] theorem State.writeDbuf_cfgK1 (v : Vector Word 16) : (s.writeDbuf v).cfgK1 = s.cfgK1 := rfl
@[simp] theorem State.writeDbuf_cfgK2 (v : Vector Word 16) : (s.writeDbuf v).cfgK2 = s.cfgK2 := rfl
@[simp] theorem State.writeDbuf_cfgK3 (v : Vector Word 16) : (s.writeDbuf v).cfgK3 = s.cfgK3 := rfl
@[simp] theorem State.writeDbuf_cv (v : Vector Word 16) : (s.writeDbuf v).cv = s.cv := rfl
@[simp] theorem State.writeDbuf_ca (v : Vector Word 16) : (s.writeDbuf v).ca = s.ca := rfl
@[simp] theorem State.writeDbuf_cb (v : Vector Word 16) : (s.writeDbuf v).cb = s.cb := rfl
@[simp] theorem State.writeDbuf_dbuf (v : Vector Word 16) : (s.writeDbuf v).dbuf = v := rfl
@[simp] theorem State.writeDbuf_nv (v : Vector Word 16) : (s.writeDbuf v).nv = s.nv := rfl
@[simp] theorem State.writeDbuf_nafLen (v : Vector Word 16) : (s.writeDbuf v).nafLen = s.nafLen := rfl
@[simp] theorem State.writeDbuf_nafW (v : Vector Word 16) : (s.writeDbuf v).nafW = s.nafW := rfl
@[simp] theorem State.writeDbuf_naf (v : Vector Word 16) : (s.writeDbuf v).naf = s.naf := rfl
@[simp] theorem State.writeDbuf_tv (v : Vector Word 16) : (s.writeDbuf v).tv = s.tv := rfl
@[simp] theorem State.writeDbuf_tw (v : Vector Word 16) : (s.writeDbuf v).tw = s.tw := rfl
@[simp] theorem State.writeDbuf_tp (v : Vector Word 16) : (s.writeDbuf v).tp = s.tp := rfl
@[simp] theorem State.writeDbuf_tpos (v : Vector Word 16) : (s.writeDbuf v).tpos = s.tpos := rfl
@[simp] theorem State.writeDbuf_tneg (v : Vector Word 16) : (s.writeDbuf v).tneg = s.tneg := rfl
@[simp] theorem State.writeDbuf_fault (v : Vector Word 16) : (s.writeDbuf v).fault = s.fault := rfl
@[simp] theorem State.writeDbuf_errcode (v : Vector Word 16) : (s.writeDbuf v).errcode = s.errcode := rfl
@[simp] theorem State.writeDbuf_faultcmd (v : Vector Word 16) : (s.writeDbuf v).faultcmd = s.faultcmd := rfl
@[simp] theorem State.writeDbuf_cseq (v : Vector Word 16) : (s.writeDbuf v).cseq = s.cseq := rfl
@[simp] theorem State.writeDbuf_pending (v : Vector Word 16) : (s.writeDbuf v).pending = s.pending := rfl
@[simp] theorem State.writeDbuf_replies (v : Vector Word 16) : (s.writeDbuf v).replies = s.replies := rfl
@[simp] theorem State.writeDbuf_draws (v : Vector Word 16) : (s.writeDbuf v).draws = s.draws := rfl

/-! ### `writeNaf` -/

@[simp] theorem State.writeNaf_f (w : Nat) (es : List Word) : (s.writeNaf w es).f = s.f := rfl
@[simp] theorem State.writeNaf_fval (w : Nat) (es : List Word) : (s.writeNaf w es).fval = s.fval := rfl
@[simp] theorem State.writeNaf_p (w : Nat) (es : List Word) : (s.writeNaf w es).p = s.p := rfl
@[simp] theorem State.writeNaf_pval (w : Nat) (es : List Word) : (s.writeNaf w es).pval = s.pval := rfl
@[simp] theorem State.writeNaf_res (w : Nat) (es : List Word) : (s.writeNaf w es).res = s.res := rfl
@[simp] theorem State.writeNaf_fv (w : Nat) (es : List Word) : (s.writeNaf w es).fv = s.fv := rfl
@[simp] theorem State.writeNaf_fldM (w : Nat) (es : List Word) : (s.writeNaf w es).fldM = s.fldM := rfl
@[simp] theorem State.writeNaf_fldNk (w : Nat) (es : List Word) : (s.writeNaf w es).fldNk = s.fldNk := rfl
@[simp] theorem State.writeNaf_fldK1 (w : Nat) (es : List Word) : (s.writeNaf w es).fldK1 = s.fldK1 := rfl
@[simp] theorem State.writeNaf_fldK2 (w : Nat) (es : List Word) : (s.writeNaf w es).fldK2 = s.fldK2 := rfl
@[simp] theorem State.writeNaf_fldK3 (w : Nat) (es : List Word) : (s.writeNaf w es).fldK3 = s.fldK3 := rfl
@[simp] theorem State.writeNaf_cfgM (w : Nat) (es : List Word) : (s.writeNaf w es).cfgM = s.cfgM := rfl
@[simp] theorem State.writeNaf_cfgNk (w : Nat) (es : List Word) : (s.writeNaf w es).cfgNk = s.cfgNk := rfl
@[simp] theorem State.writeNaf_cfgK1 (w : Nat) (es : List Word) : (s.writeNaf w es).cfgK1 = s.cfgK1 := rfl
@[simp] theorem State.writeNaf_cfgK2 (w : Nat) (es : List Word) : (s.writeNaf w es).cfgK2 = s.cfgK2 := rfl
@[simp] theorem State.writeNaf_cfgK3 (w : Nat) (es : List Word) : (s.writeNaf w es).cfgK3 = s.cfgK3 := rfl
@[simp] theorem State.writeNaf_cv (w : Nat) (es : List Word) : (s.writeNaf w es).cv = s.cv := rfl
@[simp] theorem State.writeNaf_ca (w : Nat) (es : List Word) : (s.writeNaf w es).ca = s.ca := rfl
@[simp] theorem State.writeNaf_cb (w : Nat) (es : List Word) : (s.writeNaf w es).cb = s.cb := rfl
@[simp] theorem State.writeNaf_dbuf (w : Nat) (es : List Word) : (s.writeNaf w es).dbuf = s.dbuf := rfl
@[simp] theorem State.writeNaf_nv (w : Nat) (es : List Word) : (s.writeNaf w es).nv = true := rfl
@[simp] theorem State.writeNaf_nafLen (w : Nat) (es : List Word) : (s.writeNaf w es).nafLen = BitVec.ofNat 16 es.length := rfl
@[simp] theorem State.writeNaf_nafW (w : Nat) (es : List Word) : (s.writeNaf w es).nafW = BitVec.ofNat 8 w := rfl
@[simp] theorem State.writeNaf_naf (w : Nat) (es : List Word) : (s.writeNaf w es).naf = overwrite s.naf es := rfl
@[simp] theorem State.writeNaf_tv (w : Nat) (es : List Word) : (s.writeNaf w es).tv = s.tv := rfl
@[simp] theorem State.writeNaf_tw (w : Nat) (es : List Word) : (s.writeNaf w es).tw = s.tw := rfl
@[simp] theorem State.writeNaf_tp (w : Nat) (es : List Word) : (s.writeNaf w es).tp = s.tp := rfl
@[simp] theorem State.writeNaf_tpos (w : Nat) (es : List Word) : (s.writeNaf w es).tpos = s.tpos := rfl
@[simp] theorem State.writeNaf_tneg (w : Nat) (es : List Word) : (s.writeNaf w es).tneg = s.tneg := rfl
@[simp] theorem State.writeNaf_fault (w : Nat) (es : List Word) : (s.writeNaf w es).fault = s.fault := rfl
@[simp] theorem State.writeNaf_errcode (w : Nat) (es : List Word) : (s.writeNaf w es).errcode = s.errcode := rfl
@[simp] theorem State.writeNaf_faultcmd (w : Nat) (es : List Word) : (s.writeNaf w es).faultcmd = s.faultcmd := rfl
@[simp] theorem State.writeNaf_cseq (w : Nat) (es : List Word) : (s.writeNaf w es).cseq = s.cseq := rfl
@[simp] theorem State.writeNaf_pending (w : Nat) (es : List Word) : (s.writeNaf w es).pending = s.pending := rfl
@[simp] theorem State.writeNaf_replies (w : Nat) (es : List Word) : (s.writeNaf w es).replies = s.replies := rfl
@[simp] theorem State.writeNaf_draws (w : Nat) (es : List Word) : (s.writeNaf w es).draws = s.draws := rfl

/-! ### `writeTable` -/

@[simp] theorem State.writeTable_f (w : Nat) (P : PointReg) (T N : List Point) : (s.writeTable w P T N).f = s.f := rfl
@[simp] theorem State.writeTable_fval (w : Nat) (P : PointReg) (T N : List Point) : (s.writeTable w P T N).fval = s.fval := rfl
@[simp] theorem State.writeTable_p (w : Nat) (P : PointReg) (T N : List Point) : (s.writeTable w P T N).p = s.p := rfl
@[simp] theorem State.writeTable_pval (w : Nat) (P : PointReg) (T N : List Point) : (s.writeTable w P T N).pval = s.pval := rfl
@[simp] theorem State.writeTable_res (w : Nat) (P : PointReg) (T N : List Point) : (s.writeTable w P T N).res = s.res := rfl
@[simp] theorem State.writeTable_fv (w : Nat) (P : PointReg) (T N : List Point) : (s.writeTable w P T N).fv = s.fv := rfl
@[simp] theorem State.writeTable_fldM (w : Nat) (P : PointReg) (T N : List Point) : (s.writeTable w P T N).fldM = s.fldM := rfl
@[simp] theorem State.writeTable_fldNk (w : Nat) (P : PointReg) (T N : List Point) : (s.writeTable w P T N).fldNk = s.fldNk := rfl
@[simp] theorem State.writeTable_fldK1 (w : Nat) (P : PointReg) (T N : List Point) : (s.writeTable w P T N).fldK1 = s.fldK1 := rfl
@[simp] theorem State.writeTable_fldK2 (w : Nat) (P : PointReg) (T N : List Point) : (s.writeTable w P T N).fldK2 = s.fldK2 := rfl
@[simp] theorem State.writeTable_fldK3 (w : Nat) (P : PointReg) (T N : List Point) : (s.writeTable w P T N).fldK3 = s.fldK3 := rfl
@[simp] theorem State.writeTable_cfgM (w : Nat) (P : PointReg) (T N : List Point) : (s.writeTable w P T N).cfgM = s.cfgM := rfl
@[simp] theorem State.writeTable_cfgNk (w : Nat) (P : PointReg) (T N : List Point) : (s.writeTable w P T N).cfgNk = s.cfgNk := rfl
@[simp] theorem State.writeTable_cfgK1 (w : Nat) (P : PointReg) (T N : List Point) : (s.writeTable w P T N).cfgK1 = s.cfgK1 := rfl
@[simp] theorem State.writeTable_cfgK2 (w : Nat) (P : PointReg) (T N : List Point) : (s.writeTable w P T N).cfgK2 = s.cfgK2 := rfl
@[simp] theorem State.writeTable_cfgK3 (w : Nat) (P : PointReg) (T N : List Point) : (s.writeTable w P T N).cfgK3 = s.cfgK3 := rfl
@[simp] theorem State.writeTable_cv (w : Nat) (P : PointReg) (T N : List Point) : (s.writeTable w P T N).cv = s.cv := rfl
@[simp] theorem State.writeTable_ca (w : Nat) (P : PointReg) (T N : List Point) : (s.writeTable w P T N).ca = s.ca := rfl
@[simp] theorem State.writeTable_cb (w : Nat) (P : PointReg) (T N : List Point) : (s.writeTable w P T N).cb = s.cb := rfl
@[simp] theorem State.writeTable_dbuf (w : Nat) (P : PointReg) (T N : List Point) : (s.writeTable w P T N).dbuf = s.dbuf := rfl
@[simp] theorem State.writeTable_nv (w : Nat) (P : PointReg) (T N : List Point) : (s.writeTable w P T N).nv = s.nv := rfl
@[simp] theorem State.writeTable_nafLen (w : Nat) (P : PointReg) (T N : List Point) : (s.writeTable w P T N).nafLen = s.nafLen := rfl
@[simp] theorem State.writeTable_nafW (w : Nat) (P : PointReg) (T N : List Point) : (s.writeTable w P T N).nafW = s.nafW := rfl
@[simp] theorem State.writeTable_naf (w : Nat) (P : PointReg) (T N : List Point) : (s.writeTable w P T N).naf = s.naf := rfl
@[simp] theorem State.writeTable_tv (w : Nat) (P : PointReg) (T N : List Point) : (s.writeTable w P T N).tv = true := rfl
@[simp] theorem State.writeTable_tw (w : Nat) (P : PointReg) (T N : List Point) : (s.writeTable w P T N).tw = BitVec.ofNat 8 w := rfl
@[simp] theorem State.writeTable_tp (w : Nat) (P : PointReg) (T N : List Point) : (s.writeTable w P T N).tp = P := rfl
@[simp] theorem State.writeTable_tpos (w : Nat) (P : PointReg) (T N : List Point) : (s.writeTable w P T N).tpos = overwrite s.tpos (T.map Point.toReg) := rfl
@[simp] theorem State.writeTable_tneg (w : Nat) (P : PointReg) (T N : List Point) : (s.writeTable w P T N).tneg = overwrite s.tneg (N.map Point.toReg) := rfl
@[simp] theorem State.writeTable_fault (w : Nat) (P : PointReg) (T N : List Point) : (s.writeTable w P T N).fault = s.fault := rfl
@[simp] theorem State.writeTable_errcode (w : Nat) (P : PointReg) (T N : List Point) : (s.writeTable w P T N).errcode = s.errcode := rfl
@[simp] theorem State.writeTable_faultcmd (w : Nat) (P : PointReg) (T N : List Point) : (s.writeTable w P T N).faultcmd = s.faultcmd := rfl
@[simp] theorem State.writeTable_cseq (w : Nat) (P : PointReg) (T N : List Point) : (s.writeTable w P T N).cseq = s.cseq := rfl
@[simp] theorem State.writeTable_pending (w : Nat) (P : PointReg) (T N : List Point) : (s.writeTable w P T N).pending = s.pending := rfl
@[simp] theorem State.writeTable_replies (w : Nat) (P : PointReg) (T N : List Point) : (s.writeTable w P T N).replies = s.replies := rfl
@[simp] theorem State.writeTable_draws (w : Nat) (P : PointReg) (T N : List Point) : (s.writeTable w P T N).draws = s.draws := rfl

/-! ### `writeField` -/

@[simp] theorem State.writeField_f (m nk k1 k2 k3 : Word) : (s.writeField m nk k1 k2 k3).f = s.f := rfl
@[simp] theorem State.writeField_fval (m nk k1 k2 k3 : Word) : (s.writeField m nk k1 k2 k3).fval = Vector.replicate 16 false := rfl
@[simp] theorem State.writeField_p (m nk k1 k2 k3 : Word) : (s.writeField m nk k1 k2 k3).p = s.p := rfl
@[simp] theorem State.writeField_pval (m nk k1 k2 k3 : Word) : (s.writeField m nk k1 k2 k3).pval = Vector.replicate 8 false := rfl
@[simp] theorem State.writeField_res (m nk k1 k2 k3 : Word) : (s.writeField m nk k1 k2 k3).res = s.res := rfl
@[simp] theorem State.writeField_fv (m nk k1 k2 k3 : Word) : (s.writeField m nk k1 k2 k3).fv = true := rfl
@[simp] theorem State.writeField_fldM (m nk k1 k2 k3 : Word) : (s.writeField m nk k1 k2 k3).fldM = m := rfl
@[simp] theorem State.writeField_fldNk (m nk k1 k2 k3 : Word) : (s.writeField m nk k1 k2 k3).fldNk = nk := rfl
@[simp] theorem State.writeField_fldK1 (m nk k1 k2 k3 : Word) : (s.writeField m nk k1 k2 k3).fldK1 = k1 := rfl
@[simp] theorem State.writeField_fldK2 (m nk k1 k2 k3 : Word) : (s.writeField m nk k1 k2 k3).fldK2 = k2 := rfl
@[simp] theorem State.writeField_fldK3 (m nk k1 k2 k3 : Word) : (s.writeField m nk k1 k2 k3).fldK3 = k3 := rfl
@[simp] theorem State.writeField_cfgM (m nk k1 k2 k3 : Word) : (s.writeField m nk k1 k2 k3).cfgM = s.cfgM := rfl
@[simp] theorem State.writeField_cfgNk (m nk k1 k2 k3 : Word) : (s.writeField m nk k1 k2 k3).cfgNk = s.cfgNk := rfl
@[simp] theorem State.writeField_cfgK1 (m nk k1 k2 k3 : Word) : (s.writeField m nk k1 k2 k3).cfgK1 = s.cfgK1 := rfl
@[simp] theorem State.writeField_cfgK2 (m nk k1 k2 k3 : Word) : (s.writeField m nk k1 k2 k3).cfgK2 = s.cfgK2 := rfl
@[simp] theorem State.writeField_cfgK3 (m nk k1 k2 k3 : Word) : (s.writeField m nk k1 k2 k3).cfgK3 = s.cfgK3 := rfl
@[simp] theorem State.writeField_cv (m nk k1 k2 k3 : Word) : (s.writeField m nk k1 k2 k3).cv = false := rfl
@[simp] theorem State.writeField_ca (m nk k1 k2 k3 : Word) : (s.writeField m nk k1 k2 k3).ca = s.ca := rfl
@[simp] theorem State.writeField_cb (m nk k1 k2 k3 : Word) : (s.writeField m nk k1 k2 k3).cb = s.cb := rfl
@[simp] theorem State.writeField_dbuf (m nk k1 k2 k3 : Word) : (s.writeField m nk k1 k2 k3).dbuf = s.dbuf := rfl
@[simp] theorem State.writeField_nv (m nk k1 k2 k3 : Word) : (s.writeField m nk k1 k2 k3).nv = false := rfl
@[simp] theorem State.writeField_nafLen (m nk k1 k2 k3 : Word) : (s.writeField m nk k1 k2 k3).nafLen = s.nafLen := rfl
@[simp] theorem State.writeField_nafW (m nk k1 k2 k3 : Word) : (s.writeField m nk k1 k2 k3).nafW = s.nafW := rfl
@[simp] theorem State.writeField_naf (m nk k1 k2 k3 : Word) : (s.writeField m nk k1 k2 k3).naf = s.naf := rfl
@[simp] theorem State.writeField_tv (m nk k1 k2 k3 : Word) : (s.writeField m nk k1 k2 k3).tv = false := rfl
@[simp] theorem State.writeField_tw (m nk k1 k2 k3 : Word) : (s.writeField m nk k1 k2 k3).tw = s.tw := rfl
@[simp] theorem State.writeField_tp (m nk k1 k2 k3 : Word) : (s.writeField m nk k1 k2 k3).tp = s.tp := rfl
@[simp] theorem State.writeField_tpos (m nk k1 k2 k3 : Word) : (s.writeField m nk k1 k2 k3).tpos = s.tpos := rfl
@[simp] theorem State.writeField_tneg (m nk k1 k2 k3 : Word) : (s.writeField m nk k1 k2 k3).tneg = s.tneg := rfl
@[simp] theorem State.writeField_fault (m nk k1 k2 k3 : Word) : (s.writeField m nk k1 k2 k3).fault = s.fault := rfl
@[simp] theorem State.writeField_errcode (m nk k1 k2 k3 : Word) : (s.writeField m nk k1 k2 k3).errcode = s.errcode := rfl
@[simp] theorem State.writeField_faultcmd (m nk k1 k2 k3 : Word) : (s.writeField m nk k1 k2 k3).faultcmd = s.faultcmd := rfl
@[simp] theorem State.writeField_cseq (m nk k1 k2 k3 : Word) : (s.writeField m nk k1 k2 k3).cseq = s.cseq := rfl
@[simp] theorem State.writeField_pending (m nk k1 k2 k3 : Word) : (s.writeField m nk k1 k2 k3).pending = s.pending := rfl
@[simp] theorem State.writeField_replies (m nk k1 k2 k3 : Word) : (s.writeField m nk k1 k2 k3).replies = s.replies := rfl
@[simp] theorem State.writeField_draws (m nk k1 k2 k3 : Word) : (s.writeField m nk k1 k2 k3).draws = s.draws := rfl

/-! ### `writeCurve` -/

@[simp] theorem State.writeCurve_f (a b : FVal) : (s.writeCurve a b).f = s.f := rfl
@[simp] theorem State.writeCurve_fval (a b : FVal) : (s.writeCurve a b).fval = s.fval := rfl
@[simp] theorem State.writeCurve_p (a b : FVal) : (s.writeCurve a b).p = s.p := rfl
@[simp] theorem State.writeCurve_pval (a b : FVal) : (s.writeCurve a b).pval = Vector.replicate 8 false := rfl
@[simp] theorem State.writeCurve_res (a b : FVal) : (s.writeCurve a b).res = s.res := rfl
@[simp] theorem State.writeCurve_fv (a b : FVal) : (s.writeCurve a b).fv = s.fv := rfl
@[simp] theorem State.writeCurve_fldM (a b : FVal) : (s.writeCurve a b).fldM = s.fldM := rfl
@[simp] theorem State.writeCurve_fldNk (a b : FVal) : (s.writeCurve a b).fldNk = s.fldNk := rfl
@[simp] theorem State.writeCurve_fldK1 (a b : FVal) : (s.writeCurve a b).fldK1 = s.fldK1 := rfl
@[simp] theorem State.writeCurve_fldK2 (a b : FVal) : (s.writeCurve a b).fldK2 = s.fldK2 := rfl
@[simp] theorem State.writeCurve_fldK3 (a b : FVal) : (s.writeCurve a b).fldK3 = s.fldK3 := rfl
@[simp] theorem State.writeCurve_cfgM (a b : FVal) : (s.writeCurve a b).cfgM = s.cfgM := rfl
@[simp] theorem State.writeCurve_cfgNk (a b : FVal) : (s.writeCurve a b).cfgNk = s.cfgNk := rfl
@[simp] theorem State.writeCurve_cfgK1 (a b : FVal) : (s.writeCurve a b).cfgK1 = s.cfgK1 := rfl
@[simp] theorem State.writeCurve_cfgK2 (a b : FVal) : (s.writeCurve a b).cfgK2 = s.cfgK2 := rfl
@[simp] theorem State.writeCurve_cfgK3 (a b : FVal) : (s.writeCurve a b).cfgK3 = s.cfgK3 := rfl
@[simp] theorem State.writeCurve_cv (a b : FVal) : (s.writeCurve a b).cv = true := rfl
@[simp] theorem State.writeCurve_ca (a b : FVal) : (s.writeCurve a b).ca = a := rfl
@[simp] theorem State.writeCurve_cb (a b : FVal) : (s.writeCurve a b).cb = b := rfl
@[simp] theorem State.writeCurve_dbuf (a b : FVal) : (s.writeCurve a b).dbuf = s.dbuf := rfl
@[simp] theorem State.writeCurve_nv (a b : FVal) : (s.writeCurve a b).nv = s.nv := rfl
@[simp] theorem State.writeCurve_nafLen (a b : FVal) : (s.writeCurve a b).nafLen = s.nafLen := rfl
@[simp] theorem State.writeCurve_nafW (a b : FVal) : (s.writeCurve a b).nafW = s.nafW := rfl
@[simp] theorem State.writeCurve_naf (a b : FVal) : (s.writeCurve a b).naf = s.naf := rfl
@[simp] theorem State.writeCurve_tv (a b : FVal) : (s.writeCurve a b).tv = false := rfl
@[simp] theorem State.writeCurve_tw (a b : FVal) : (s.writeCurve a b).tw = s.tw := rfl
@[simp] theorem State.writeCurve_tp (a b : FVal) : (s.writeCurve a b).tp = s.tp := rfl
@[simp] theorem State.writeCurve_tpos (a b : FVal) : (s.writeCurve a b).tpos = s.tpos := rfl
@[simp] theorem State.writeCurve_tneg (a b : FVal) : (s.writeCurve a b).tneg = s.tneg := rfl
@[simp] theorem State.writeCurve_fault (a b : FVal) : (s.writeCurve a b).fault = s.fault := rfl
@[simp] theorem State.writeCurve_errcode (a b : FVal) : (s.writeCurve a b).errcode = s.errcode := rfl
@[simp] theorem State.writeCurve_faultcmd (a b : FVal) : (s.writeCurve a b).faultcmd = s.faultcmd := rfl
@[simp] theorem State.writeCurve_cseq (a b : FVal) : (s.writeCurve a b).cseq = s.cseq := rfl
@[simp] theorem State.writeCurve_pending (a b : FVal) : (s.writeCurve a b).pending = s.pending := rfl
@[simp] theorem State.writeCurve_replies (a b : FVal) : (s.writeCurve a b).replies = s.replies := rfl
@[simp] theorem State.writeCurve_draws (a b : FVal) : (s.writeCurve a b).draws = s.draws := rfl

/-! ### `countCommand` -/

@[simp] theorem State.countCommand_f : (s.countCommand).f = s.f := rfl
@[simp] theorem State.countCommand_fval : (s.countCommand).fval = s.fval := rfl
@[simp] theorem State.countCommand_p : (s.countCommand).p = s.p := rfl
@[simp] theorem State.countCommand_pval : (s.countCommand).pval = s.pval := rfl
@[simp] theorem State.countCommand_res : (s.countCommand).res = s.res := rfl
@[simp] theorem State.countCommand_fv : (s.countCommand).fv = s.fv := rfl
@[simp] theorem State.countCommand_fldM : (s.countCommand).fldM = s.fldM := rfl
@[simp] theorem State.countCommand_fldNk : (s.countCommand).fldNk = s.fldNk := rfl
@[simp] theorem State.countCommand_fldK1 : (s.countCommand).fldK1 = s.fldK1 := rfl
@[simp] theorem State.countCommand_fldK2 : (s.countCommand).fldK2 = s.fldK2 := rfl
@[simp] theorem State.countCommand_fldK3 : (s.countCommand).fldK3 = s.fldK3 := rfl
@[simp] theorem State.countCommand_cfgM : (s.countCommand).cfgM = s.cfgM := rfl
@[simp] theorem State.countCommand_cfgNk : (s.countCommand).cfgNk = s.cfgNk := rfl
@[simp] theorem State.countCommand_cfgK1 : (s.countCommand).cfgK1 = s.cfgK1 := rfl
@[simp] theorem State.countCommand_cfgK2 : (s.countCommand).cfgK2 = s.cfgK2 := rfl
@[simp] theorem State.countCommand_cfgK3 : (s.countCommand).cfgK3 = s.cfgK3 := rfl
@[simp] theorem State.countCommand_cv : (s.countCommand).cv = s.cv := rfl
@[simp] theorem State.countCommand_ca : (s.countCommand).ca = s.ca := rfl
@[simp] theorem State.countCommand_cb : (s.countCommand).cb = s.cb := rfl
@[simp] theorem State.countCommand_dbuf : (s.countCommand).dbuf = s.dbuf := rfl
@[simp] theorem State.countCommand_nv : (s.countCommand).nv = s.nv := rfl
@[simp] theorem State.countCommand_nafLen : (s.countCommand).nafLen = s.nafLen := rfl
@[simp] theorem State.countCommand_nafW : (s.countCommand).nafW = s.nafW := rfl
@[simp] theorem State.countCommand_naf : (s.countCommand).naf = s.naf := rfl
@[simp] theorem State.countCommand_tv : (s.countCommand).tv = s.tv := rfl
@[simp] theorem State.countCommand_tw : (s.countCommand).tw = s.tw := rfl
@[simp] theorem State.countCommand_tp : (s.countCommand).tp = s.tp := rfl
@[simp] theorem State.countCommand_tpos : (s.countCommand).tpos = s.tpos := rfl
@[simp] theorem State.countCommand_tneg : (s.countCommand).tneg = s.tneg := rfl
@[simp] theorem State.countCommand_fault : (s.countCommand).fault = s.fault := rfl
@[simp] theorem State.countCommand_errcode : (s.countCommand).errcode = s.errcode := rfl
@[simp] theorem State.countCommand_faultcmd : (s.countCommand).faultcmd = s.faultcmd := rfl
@[simp] theorem State.countCommand_cseq : (s.countCommand).cseq = s.cseq + 1 := rfl
@[simp] theorem State.countCommand_pending : (s.countCommand).pending = s.pending := rfl
@[simp] theorem State.countCommand_replies : (s.countCommand).replies = s.replies := rfl
@[simp] theorem State.countCommand_draws : (s.countCommand).draws = s.draws := rfl

/-! ### `reply` -/

@[simp] theorem State.reply_f (v : Word) : (s.reply v).f = s.f := rfl
@[simp] theorem State.reply_fval (v : Word) : (s.reply v).fval = s.fval := rfl
@[simp] theorem State.reply_p (v : Word) : (s.reply v).p = s.p := rfl
@[simp] theorem State.reply_pval (v : Word) : (s.reply v).pval = s.pval := rfl
@[simp] theorem State.reply_res (v : Word) : (s.reply v).res = s.res := rfl
@[simp] theorem State.reply_fv (v : Word) : (s.reply v).fv = s.fv := rfl
@[simp] theorem State.reply_fldM (v : Word) : (s.reply v).fldM = s.fldM := rfl
@[simp] theorem State.reply_fldNk (v : Word) : (s.reply v).fldNk = s.fldNk := rfl
@[simp] theorem State.reply_fldK1 (v : Word) : (s.reply v).fldK1 = s.fldK1 := rfl
@[simp] theorem State.reply_fldK2 (v : Word) : (s.reply v).fldK2 = s.fldK2 := rfl
@[simp] theorem State.reply_fldK3 (v : Word) : (s.reply v).fldK3 = s.fldK3 := rfl
@[simp] theorem State.reply_cfgM (v : Word) : (s.reply v).cfgM = s.cfgM := rfl
@[simp] theorem State.reply_cfgNk (v : Word) : (s.reply v).cfgNk = s.cfgNk := rfl
@[simp] theorem State.reply_cfgK1 (v : Word) : (s.reply v).cfgK1 = s.cfgK1 := rfl
@[simp] theorem State.reply_cfgK2 (v : Word) : (s.reply v).cfgK2 = s.cfgK2 := rfl
@[simp] theorem State.reply_cfgK3 (v : Word) : (s.reply v).cfgK3 = s.cfgK3 := rfl
@[simp] theorem State.reply_cv (v : Word) : (s.reply v).cv = s.cv := rfl
@[simp] theorem State.reply_ca (v : Word) : (s.reply v).ca = s.ca := rfl
@[simp] theorem State.reply_cb (v : Word) : (s.reply v).cb = s.cb := rfl
@[simp] theorem State.reply_dbuf (v : Word) : (s.reply v).dbuf = s.dbuf := rfl
@[simp] theorem State.reply_nv (v : Word) : (s.reply v).nv = s.nv := rfl
@[simp] theorem State.reply_nafLen (v : Word) : (s.reply v).nafLen = s.nafLen := rfl
@[simp] theorem State.reply_nafW (v : Word) : (s.reply v).nafW = s.nafW := rfl
@[simp] theorem State.reply_naf (v : Word) : (s.reply v).naf = s.naf := rfl
@[simp] theorem State.reply_tv (v : Word) : (s.reply v).tv = s.tv := rfl
@[simp] theorem State.reply_tw (v : Word) : (s.reply v).tw = s.tw := rfl
@[simp] theorem State.reply_tp (v : Word) : (s.reply v).tp = s.tp := rfl
@[simp] theorem State.reply_tpos (v : Word) : (s.reply v).tpos = s.tpos := rfl
@[simp] theorem State.reply_tneg (v : Word) : (s.reply v).tneg = s.tneg := rfl
@[simp] theorem State.reply_fault (v : Word) : (s.reply v).fault = s.fault := rfl
@[simp] theorem State.reply_errcode (v : Word) : (s.reply v).errcode = s.errcode := rfl
@[simp] theorem State.reply_faultcmd (v : Word) : (s.reply v).faultcmd = s.faultcmd := rfl
@[simp] theorem State.reply_cseq (v : Word) : (s.reply v).cseq = s.cseq := rfl
@[simp] theorem State.reply_pending (v : Word) : (s.reply v).pending = s.pending := rfl
@[simp] theorem State.reply_replies (v : Word) : (s.reply v).replies = s.replies ++ [v] := rfl
@[simp] theorem State.reply_draws (v : Word) : (s.reply v).draws = s.draws := rfl

/-! ### `replyFree` -/

@[simp] theorem State.replyFree_f : (s.replyFree).f = s.f := rfl
@[simp] theorem State.replyFree_fval : (s.replyFree).fval = s.fval := rfl
@[simp] theorem State.replyFree_p : (s.replyFree).p = s.p := rfl
@[simp] theorem State.replyFree_pval : (s.replyFree).pval = s.pval := rfl
@[simp] theorem State.replyFree_res : (s.replyFree).res = s.res := rfl
@[simp] theorem State.replyFree_fv : (s.replyFree).fv = s.fv := rfl
@[simp] theorem State.replyFree_fldM : (s.replyFree).fldM = s.fldM := rfl
@[simp] theorem State.replyFree_fldNk : (s.replyFree).fldNk = s.fldNk := rfl
@[simp] theorem State.replyFree_fldK1 : (s.replyFree).fldK1 = s.fldK1 := rfl
@[simp] theorem State.replyFree_fldK2 : (s.replyFree).fldK2 = s.fldK2 := rfl
@[simp] theorem State.replyFree_fldK3 : (s.replyFree).fldK3 = s.fldK3 := rfl
@[simp] theorem State.replyFree_cfgM : (s.replyFree).cfgM = s.cfgM := rfl
@[simp] theorem State.replyFree_cfgNk : (s.replyFree).cfgNk = s.cfgNk := rfl
@[simp] theorem State.replyFree_cfgK1 : (s.replyFree).cfgK1 = s.cfgK1 := rfl
@[simp] theorem State.replyFree_cfgK2 : (s.replyFree).cfgK2 = s.cfgK2 := rfl
@[simp] theorem State.replyFree_cfgK3 : (s.replyFree).cfgK3 = s.cfgK3 := rfl
@[simp] theorem State.replyFree_cv : (s.replyFree).cv = s.cv := rfl
@[simp] theorem State.replyFree_ca : (s.replyFree).ca = s.ca := rfl
@[simp] theorem State.replyFree_cb : (s.replyFree).cb = s.cb := rfl
@[simp] theorem State.replyFree_dbuf : (s.replyFree).dbuf = s.dbuf := rfl
@[simp] theorem State.replyFree_nv : (s.replyFree).nv = s.nv := rfl
@[simp] theorem State.replyFree_nafLen : (s.replyFree).nafLen = s.nafLen := rfl
@[simp] theorem State.replyFree_nafW : (s.replyFree).nafW = s.nafW := rfl
@[simp] theorem State.replyFree_naf : (s.replyFree).naf = s.naf := rfl
@[simp] theorem State.replyFree_tv : (s.replyFree).tv = s.tv := rfl
@[simp] theorem State.replyFree_tw : (s.replyFree).tw = s.tw := rfl
@[simp] theorem State.replyFree_tp : (s.replyFree).tp = s.tp := rfl
@[simp] theorem State.replyFree_tpos : (s.replyFree).tpos = s.tpos := rfl
@[simp] theorem State.replyFree_tneg : (s.replyFree).tneg = s.tneg := rfl
@[simp] theorem State.replyFree_fault : (s.replyFree).fault = s.fault := rfl
@[simp] theorem State.replyFree_errcode : (s.replyFree).errcode = s.errcode := rfl
@[simp] theorem State.replyFree_faultcmd : (s.replyFree).faultcmd = s.faultcmd := rfl
@[simp] theorem State.replyFree_cseq : (s.replyFree).cseq = s.cseq := rfl
@[simp] theorem State.replyFree_pending : (s.replyFree).pending = s.pending := rfl
@[simp] theorem State.replyFree_replies : (s.replyFree).replies = s.replies ++ [Config.reservedRead s.draws] := rfl
@[simp] theorem State.replyFree_draws : (s.replyFree).draws = s.draws + 1 := rfl

/-! ### `takeFault` -/

@[simp] theorem State.takeFault_f (c : FaultCode) (w : Word) : (s.takeFault c w).f = s.f := rfl
@[simp] theorem State.takeFault_fval (c : FaultCode) (w : Word) : (s.takeFault c w).fval = s.fval := rfl
@[simp] theorem State.takeFault_p (c : FaultCode) (w : Word) : (s.takeFault c w).p = s.p := rfl
@[simp] theorem State.takeFault_pval (c : FaultCode) (w : Word) : (s.takeFault c w).pval = s.pval := rfl
@[simp] theorem State.takeFault_res (c : FaultCode) (w : Word) : (s.takeFault c w).res = s.res := rfl
@[simp] theorem State.takeFault_fv (c : FaultCode) (w : Word) : (s.takeFault c w).fv = s.fv := rfl
@[simp] theorem State.takeFault_fldM (c : FaultCode) (w : Word) : (s.takeFault c w).fldM = s.fldM := rfl
@[simp] theorem State.takeFault_fldNk (c : FaultCode) (w : Word) : (s.takeFault c w).fldNk = s.fldNk := rfl
@[simp] theorem State.takeFault_fldK1 (c : FaultCode) (w : Word) : (s.takeFault c w).fldK1 = s.fldK1 := rfl
@[simp] theorem State.takeFault_fldK2 (c : FaultCode) (w : Word) : (s.takeFault c w).fldK2 = s.fldK2 := rfl
@[simp] theorem State.takeFault_fldK3 (c : FaultCode) (w : Word) : (s.takeFault c w).fldK3 = s.fldK3 := rfl
@[simp] theorem State.takeFault_cfgM (c : FaultCode) (w : Word) : (s.takeFault c w).cfgM = s.cfgM := rfl
@[simp] theorem State.takeFault_cfgNk (c : FaultCode) (w : Word) : (s.takeFault c w).cfgNk = s.cfgNk := rfl
@[simp] theorem State.takeFault_cfgK1 (c : FaultCode) (w : Word) : (s.takeFault c w).cfgK1 = s.cfgK1 := rfl
@[simp] theorem State.takeFault_cfgK2 (c : FaultCode) (w : Word) : (s.takeFault c w).cfgK2 = s.cfgK2 := rfl
@[simp] theorem State.takeFault_cfgK3 (c : FaultCode) (w : Word) : (s.takeFault c w).cfgK3 = s.cfgK3 := rfl
@[simp] theorem State.takeFault_cv (c : FaultCode) (w : Word) : (s.takeFault c w).cv = s.cv := rfl
@[simp] theorem State.takeFault_ca (c : FaultCode) (w : Word) : (s.takeFault c w).ca = s.ca := rfl
@[simp] theorem State.takeFault_cb (c : FaultCode) (w : Word) : (s.takeFault c w).cb = s.cb := rfl
@[simp] theorem State.takeFault_dbuf (c : FaultCode) (w : Word) : (s.takeFault c w).dbuf = s.dbuf := rfl
@[simp] theorem State.takeFault_nv (c : FaultCode) (w : Word) : (s.takeFault c w).nv = s.nv := rfl
@[simp] theorem State.takeFault_nafLen (c : FaultCode) (w : Word) : (s.takeFault c w).nafLen = s.nafLen := rfl
@[simp] theorem State.takeFault_nafW (c : FaultCode) (w : Word) : (s.takeFault c w).nafW = s.nafW := rfl
@[simp] theorem State.takeFault_naf (c : FaultCode) (w : Word) : (s.takeFault c w).naf = s.naf := rfl
@[simp] theorem State.takeFault_tv (c : FaultCode) (w : Word) : (s.takeFault c w).tv = s.tv := rfl
@[simp] theorem State.takeFault_tw (c : FaultCode) (w : Word) : (s.takeFault c w).tw = s.tw := rfl
@[simp] theorem State.takeFault_tp (c : FaultCode) (w : Word) : (s.takeFault c w).tp = s.tp := rfl
@[simp] theorem State.takeFault_tpos (c : FaultCode) (w : Word) : (s.takeFault c w).tpos = s.tpos := rfl
@[simp] theorem State.takeFault_tneg (c : FaultCode) (w : Word) : (s.takeFault c w).tneg = s.tneg := rfl
@[simp] theorem State.takeFault_fault (c : FaultCode) (w : Word) : (s.takeFault c w).fault = true := rfl
@[simp] theorem State.takeFault_errcode (c : FaultCode) (w : Word) : (s.takeFault c w).errcode = c.code := rfl
@[simp] theorem State.takeFault_faultcmd (c : FaultCode) (w : Word) : (s.takeFault c w).faultcmd = w := rfl
@[simp] theorem State.takeFault_cseq (c : FaultCode) (w : Word) : (s.takeFault c w).cseq = s.cseq := rfl
@[simp] theorem State.takeFault_pending (c : FaultCode) (w : Word) : (s.takeFault c w).pending = s.pending := rfl
@[simp] theorem State.takeFault_replies (c : FaultCode) (w : Word) : (s.takeFault c w).replies = s.replies := rfl
@[simp] theorem State.takeFault_draws (c : FaultCode) (w : Word) : (s.takeFault c w).draws = s.draws := rfl

/-! ### `resetEngine` -/

@[simp] theorem State.resetEngine_f : (s.resetEngine).f = Vector.replicate 16 0 := rfl
@[simp] theorem State.resetEngine_fval : (s.resetEngine).fval = Vector.replicate 16 false := rfl
@[simp] theorem State.resetEngine_p : (s.resetEngine).p = Vector.replicate 8 PointReg.zero := rfl
@[simp] theorem State.resetEngine_pval : (s.resetEngine).pval = Vector.replicate 8 false := rfl
@[simp] theorem State.resetEngine_res : (s.resetEngine).res = 0 := rfl
@[simp] theorem State.resetEngine_fv : (s.resetEngine).fv = false := rfl
@[simp] theorem State.resetEngine_fldM : (s.resetEngine).fldM = 0 := rfl
@[simp] theorem State.resetEngine_fldNk : (s.resetEngine).fldNk = 0 := rfl
@[simp] theorem State.resetEngine_fldK1 : (s.resetEngine).fldK1 = 0 := rfl
@[simp] theorem State.resetEngine_fldK2 : (s.resetEngine).fldK2 = 0 := rfl
@[simp] theorem State.resetEngine_fldK3 : (s.resetEngine).fldK3 = 0 := rfl
@[simp] theorem State.resetEngine_cfgM : (s.resetEngine).cfgM = 0 := rfl
@[simp] theorem State.resetEngine_cfgNk : (s.resetEngine).cfgNk = 0 := rfl
@[simp] theorem State.resetEngine_cfgK1 : (s.resetEngine).cfgK1 = 0 := rfl
@[simp] theorem State.resetEngine_cfgK2 : (s.resetEngine).cfgK2 = 0 := rfl
@[simp] theorem State.resetEngine_cfgK3 : (s.resetEngine).cfgK3 = 0 := rfl
@[simp] theorem State.resetEngine_cv : (s.resetEngine).cv = false := rfl
@[simp] theorem State.resetEngine_ca : (s.resetEngine).ca = 0 := rfl
@[simp] theorem State.resetEngine_cb : (s.resetEngine).cb = 0 := rfl
@[simp] theorem State.resetEngine_dbuf : (s.resetEngine).dbuf = Vector.replicate 16 0 := rfl
@[simp] theorem State.resetEngine_nv : (s.resetEngine).nv = false := rfl
@[simp] theorem State.resetEngine_nafLen : (s.resetEngine).nafLen = 0 := rfl
@[simp] theorem State.resetEngine_nafW : (s.resetEngine).nafW = 0 := rfl
@[simp] theorem State.resetEngine_naf : (s.resetEngine).naf = Vector.replicate 257 0 := rfl
@[simp] theorem State.resetEngine_tv : (s.resetEngine).tv = false := rfl
@[simp] theorem State.resetEngine_tw : (s.resetEngine).tw = 0 := rfl
@[simp] theorem State.resetEngine_tp : (s.resetEngine).tp = PointReg.zero := rfl
@[simp] theorem State.resetEngine_tpos : (s.resetEngine).tpos = Vector.replicate 64 PointReg.zero := rfl
@[simp] theorem State.resetEngine_tneg : (s.resetEngine).tneg = Vector.replicate 64 PointReg.zero := rfl
@[simp] theorem State.resetEngine_fault : (s.resetEngine).fault = false := rfl
@[simp] theorem State.resetEngine_errcode : (s.resetEngine).errcode = 0 := rfl
@[simp] theorem State.resetEngine_faultcmd : (s.resetEngine).faultcmd = 0 := rfl
@[simp] theorem State.resetEngine_cseq : (s.resetEngine).cseq = 0 := rfl
@[simp] theorem State.resetEngine_pending : (s.resetEngine).pending = s.pending := rfl
@[simp] theorem State.resetEngine_replies : (s.resetEngine).replies = s.replies := rfl
@[simp] theorem State.resetEngine_draws : (s.resetEngine).draws = s.draws := rfl

end Sys2Proof.Machine
end

