-- ==== Sys2Proof/Laws/Ops.lean ====
section
/-! SUPPORT. What each shared operation can answer, said once: the provers cite these instead of unfolding it. -/

namespace Sys2Proof.Machine

/-! ### Sequencing of checks -/

/-- A sequence answers a value exactly when its first part does and the rest does on that value. -/
theorem except_bind_eq_ok {ε α β : Type} {x : Except ε α} {k : α → Except ε β} {b : β} :
    (x >>= k) = .ok b ↔ ∃ a, x = .ok a ∧ k a = .ok b := by
  cases x <;> simp [bind, Except.bind]

/-- A sequence raises a fault exactly when its first part raises it, or the first part answers and the rest raises it. -/
theorem except_bind_eq_error {ε α β : Type} {x : Except ε α} {k : α → Except ε β} {e : ε} :
    (x >>= k) = .error e ↔ x = .error e ∨ ∃ a, x = .ok a ∧ k a = .error e := by
  cases x <;> simp [bind, Except.bind]

@[simp] theorem except_pure_eq {ε α : Type} (a : α) : (pure a : Except ε α) = .ok a := rfl

@[simp] theorem except_ok_bind {ε α β : Type} (a : α) (k : α → Except ε β) : (Except.ok a >>= k) = k a := rfl

@[simp] theorem except_error_bind {ε α β : Type} (e : ε) (k : α → Except ε β) :
    ((.error e : Except ε α) >>= k) = .error e := rfl

/-! ### The end of a command -/

variable {i : Instr} {s t : State} {r : Attempt}

@[simp] theorem finish_ok (i : Instr) (s u : State) : finish i s (.ok u) = .next u.countCommand := rfl

@[simp] theorem finish_error (i : Instr) (s : State) (c : FaultCode) :
    finish i s (.error c) = .next (s.takeFault c (encode i)) := rfl

/-- A command always ends: completed and counted, or faulted with only the fault record changed. -/
theorem finish_next_iff : finish i s r = .next t ↔
    (∃ u, r = .ok u ∧ t = u.countCommand) ∨ (∃ c, r = .error c ∧ t = s.takeFault c (encode i)) := by
  cases r <;> simp [eq_comm]

/-! ### Checks and operand reads -/

theorem needField_eq_ok {u : Unit} : s.needField = .ok u ↔ s.fv = true := by
  cases h : s.fv <;> simp [State.needField, h]

theorem needField_eq_error {c : FaultCode} : s.needField = .error c ↔ s.fv = false ∧ c = .noField := by
  cases h : s.fv <;> simp [State.needField, h, eq_comm]

theorem needCurve_eq_ok {u : Unit} : s.needCurve = .ok u ↔ s.fv = true ∧ s.cv = true := by
  cases hf : s.fv <;> cases hc : s.cv <;> simp [State.needCurve, State.needField, hf, hc]

theorem needCurve_eq_error {c : FaultCode} : s.needCurve = .error c ↔
    (s.fv = false ∧ c = .noField) ∨ (s.fv = true ∧ s.cv = false ∧ c = .noCurve) := by
  cases hf : s.fv <;> cases hc : s.cv <;> simp [State.needCurve, State.needField, hf, hc, eq_comm]

theorem needTable_eq_ok {u : Unit} : s.needTable = .ok u ↔ s.tv = true := by
  cases h : s.tv <;> simp [State.needTable, h]

theorem needTable_eq_error {c : FaultCode} : s.needTable = .error c ↔ s.tv = false ∧ c = .noTable := by
  cases h : s.tv <;> simp [State.needTable, h, eq_comm]

theorem needRange_eq_ok {b : Bool} {u : Unit} : needRange b = .ok u ↔ b = true := by
  cases b <;> simp [needRange]

theorem needRange_eq_error {b : Bool} {c : FaultCode} : needRange b = .error c ↔ b = false ∧ c = .range := by
  cases b <;> simp [needRange, eq_comm]

theorem readF_eq_ok {k : FReg} {v : FVal} : s.readF k = .ok v ↔ s.fval[k] = true ∧ v = s.f[k] := by
  cases h : s.fval[k] <;> simp only [State.readF, h] <;> simp [eq_comm]

theorem readF_eq_error {k : FReg} {c : FaultCode} : s.readF k = .error c ↔ s.fval[k] = false ∧ c = .uninit := by
  cases h : s.fval[k] <;> simp only [State.readF, h] <;> simp [eq_comm]

theorem readP_eq_ok {k : PReg} {v : PointReg} : s.readP k = .ok v ↔ s.pval[k] = true ∧ v = s.p[k] := by
  cases h : s.pval[k] <;> simp only [State.readP, h] <;> simp [eq_comm]

theorem readP_eq_error {k : PReg} {c : FaultCode} : s.readP k = .error c ↔ s.pval[k] = false ∧ c = .uninit := by
  cases h : s.pval[k] <;> simp only [State.readP, h] <;> simp [eq_comm]

/-- One field source answers its contents, when a field is active and the register valid. -/
theorem fieldSource_eq_ok {ra : FReg} {v : FVal} :
    s.fieldSource ra = .ok v ↔ s.fv = true ∧ s.fval[ra] = true ∧ v = s.f[ra] := by
  simp [State.fieldSource, except_bind_eq_ok, needField_eq_ok, readF_eq_ok]

/-- Two field sources answer their contents, when a field is active and both are valid. -/
theorem fieldSources_eq_ok {ra rb : FReg} {v : FVal × FVal} :
    s.fieldSources ra rb = .ok v ↔ s.fv = true ∧ s.fval[ra] = true ∧ s.fval[rb] = true ∧ v = (s.f[ra], s.f[rb]) := by
  simp only [State.fieldSources, except_bind_eq_ok, needField_eq_ok, readF_eq_ok, except_pure_eq, Except.ok.injEq]
  constructor
  · rintro ⟨_, h, _, ⟨h1, rfl⟩, _, ⟨h2, rfl⟩, rfl⟩; exact ⟨h, h1, h2, rfl⟩
  · rintro ⟨h, h1, h2, rfl⟩; exact ⟨(), h, _, ⟨h1, rfl⟩, _, ⟨h2, rfl⟩, rfl⟩

/-- One point source answers its contents, when both contexts are active and the register valid. -/
theorem pointSource_eq_ok {ra : PReg} {v : PointReg} :
    s.pointSource ra = .ok v ↔ (s.fv = true ∧ s.cv = true) ∧ s.pval[ra] = true ∧ v = s.p[ra] := by
  simp [State.pointSource, except_bind_eq_ok, needCurve_eq_ok, readP_eq_ok]

/-- Two point sources answer their contents, when both contexts are active and both are valid. -/
theorem pointSources_eq_ok {ra rb : PReg} {v : PointReg × PointReg} :
    s.pointSources ra rb = .ok v ↔
      (s.fv = true ∧ s.cv = true) ∧ s.pval[ra] = true ∧ s.pval[rb] = true ∧ v = (s.p[ra], s.p[rb]) := by
  simp only [State.pointSources, except_bind_eq_ok, needCurve_eq_ok, readP_eq_ok, except_pure_eq, Except.ok.injEq]
  constructor
  · rintro ⟨_, h, _, ⟨h1, rfl⟩, _, ⟨h2, rfl⟩, rfl⟩; exact ⟨h, h1, h2, rfl⟩
  · rintro ⟨h, h1, h2, rfl⟩; exact ⟨(), h, _, ⟨h1, rfl⟩, _, ⟨h2, rfl⟩, rfl⟩

/-- One field source of a point command. -/
theorem curveFieldSource_eq_ok {ra : FReg} {v : FVal} :
    s.curveFieldSource ra = .ok v ↔ (s.fv = true ∧ s.cv = true) ∧ s.fval[ra] = true ∧ v = s.f[ra] := by
  simp [State.curveFieldSource, except_bind_eq_ok, needCurve_eq_ok, readF_eq_ok]

/-- Two field sources of a point command. -/
theorem curveFieldSources_eq_ok {ra rb : FReg} {v : FVal × FVal} :
    s.curveFieldSources ra rb = .ok v ↔
      (s.fv = true ∧ s.cv = true) ∧ s.fval[ra] = true ∧ s.fval[rb] = true ∧ v = (s.f[ra], s.f[rb]) := by
  simp only [State.curveFieldSources, except_bind_eq_ok, needCurve_eq_ok, readF_eq_ok, except_pure_eq, Except.ok.injEq]
  constructor
  · rintro ⟨_, h, _, ⟨h1, rfl⟩, _, ⟨h2, rfl⟩, rfl⟩; exact ⟨h, h1, h2, rfl⟩
  · rintro ⟨h, h1, h2, rfl⟩; exact ⟨(), h, _, ⟨h1, rfl⟩, _, ⟨h2, rfl⟩, rfl⟩

/-- A point and a scalar source. -/
theorem scalarSources_eq_ok {ra : PReg} {rb : FReg} {v : PointReg × FVal} :
    s.scalarSources ra rb = .ok v ↔
      (s.fv = true ∧ s.cv = true) ∧ s.pval[ra] = true ∧ s.fval[rb] = true ∧ v = (s.p[ra], s.f[rb]) := by
  simp only [State.scalarSources, except_bind_eq_ok, needCurve_eq_ok, readF_eq_ok, readP_eq_ok, except_pure_eq, Except.ok.injEq]
  constructor
  · rintro ⟨_, h, _, ⟨h1, rfl⟩, _, ⟨h2, rfl⟩, rfl⟩; exact ⟨h, h1, h2, rfl⟩
  · rintro ⟨h, h1, h2, rfl⟩; exact ⟨(), h, _, ⟨h1, rfl⟩, _, ⟨h2, rfl⟩, rfl⟩

/-! ### Contents of buffers -/

/-- An entry of an overwritten buffer: the list's where it reaches, the old one above. -/
@[simp] theorem overwrite_getElem {α : Type} {n : Nat} (v : Vector α n) (xs : List α) (j : Nat) (h : j < n) :
    (overwrite v xs)[j] = xs.getD j v[j] := by
  simp [overwrite]

/-- A word `FSTORE` writes (R131). -/
@[simp] theorem valueWords_getElem (v : FVal) (j : Nat) (h : j < 16) :
    (valueWords v)[j] = v.extractLsb' (32 * j) 32 := by
  simp [valueWords]

@[simp] theorem fieldCtx_m (s : State) : s.fieldCtx.m = s.fldM.toNat := rfl

@[simp] theorem curveCtx_fld (s : State) : s.curveCtx.fld = s.fieldCtx := rfl

@[simp] theorem curveCtx_a (s : State) : s.curveCtx.a = s.ca.toNat := rfl

@[simp] theorem curveCtx_b (s : State) : s.curveCtx.b = s.cb.toNat := rfl

/-- A gated value reads itself while its valid bit is set. -/
@[simp] theorem gated_true (v : Word) : gated true v = v := rfl

/-- A gated value reads 0 while its valid bit is clear. -/
@[simp] theorem gated_false (v : Word) : gated false v = 0 := rfl

end Sys2Proof.Machine
end

