-- ==== Sys2Proof/Laws/Arith.lean ====
section
/-! SUPPORT. The arithmetic functions taken apart once: the equations of the loops, and what each function that can fail
answers. -/

namespace Sys2Proof.Machine

variable {K : FieldCtx} {C : CurveCtx} {P Q R : Point}

/-! ### Loops -/

@[simp] theorem blen_zero : blen 0 = 0 := rfl

theorem blen_of_ne_zero {v : Nat} (h : v ≠ 0) : blen v = Nat.log2 v + 1 := by simp [blen, h]

/-- A value is below the power of 2 of its bit length. -/
theorem lt_two_pow_blen (v : Nat) : v < 2 ^ blen v := by
  unfold blen
  split
  · simp_all
  · exact Nat.lt_log2_self

@[simp] theorem clmulLow_zero (a b : Nat) : clmulLow a b 0 = 0 := rfl

theorem clmulLow_succ (a b n : Nat) :
    clmulLow a b (n + 1) = clmulLow a b n ^^^ (if b.testBit n then a <<< n else 0) := rfl

@[simp] theorem redLoop_zero (v : Nat) : redLoop K 0 v = v := rfl

/-- One pass of the reduction loop. -/
theorem redLoop_succ (n v : Nat) :
    redLoop K (n + 1) v = if K.m < blen v then redLoop K n (v ^^^ (K.f <<< (blen v - 1 - K.m))) else v := rfl

/-- A value that is short already is left alone, whatever the bound. -/
theorem redLoop_of_le {n v : Nat} (h : blen v ≤ K.m) : redLoop K n v = v := by
  cases n with
  | zero => rfl
  | succ n => rw [redLoop_succ, if_neg (Nat.not_lt.2 h)]

theorem red_of_le {v : Nat} (h : blen v ≤ K.m) : red K v = v := redLoop_of_le h

@[simp] theorem traceLoop_zero (a v : Nat) : traceLoop K a 0 v = v := rfl

theorem traceLoop_succ (a n v : Nat) : traceLoop K a (n + 1) v = traceLoop K a n (fsqr K v ^^^ a) := rfl

@[simp] theorem htrLoop_zero (a v : Nat) : htrLoop K a 0 v = v := rfl

theorem htrLoop_succ (a n v : Nat) : htrLoop K a (n + 1) v = htrLoop K a n (fsqr K (fsqr K v) ^^^ a) := rfl

/-! ### Functions that can fail -/

/-- What `finv` answers has passed the rule's own equation. -/
theorem finv_sound {a r : Nat} (h : finv K a = .ok r) : fmul K (red K a) r = 1 ∧ ∃ g, r = red K g := by
  unfold finv at h
  split at h
  · cases h
  · split at h
    · cases h; exact ⟨‹_›, _, rfl⟩
    · cases h

/-- `finv` fails in one way only. -/
theorem finv_error {a : Nat} {c : FaultCode} (h : finv K a = .error c) : c = .noInverse := by
  unfold finv at h
  split at h
  · cases h; rfl
  · split at h <;> cases h
    rfl

/-- The solver: its degree test, its check, its answer. -/
theorem fsolve_eq_ok {a z : Nat} : fsolve K a = .ok z ↔
    K.m % 2 ≠ 0 ∧ fsqr K z ^^^ z = red K a ∧ z = fhtr K (red K a) := by
  unfold fsolve
  split
  · simp_all
  · split
    · rename_i h
      simp only [Except.ok.injEq, ne_eq]
      constructor
      · rintro rfl; exact ⟨‹_›, h, rfl⟩
      · rintro ⟨-, -, rfl⟩; rfl
    · rename_i h
      simp only [reduceCtorEq, false_iff, not_and]
      rintro - hz rfl; exact h hz

/-- The solver fails for an even degree, or for want of a root. -/
theorem fsolve_error {a : Nat} {c : FaultCode} (h : fsolve K a = .error c) :
    (K.m % 2 = 0 ∧ c = .unsupported) ∨ (K.m % 2 ≠ 0 ∧ c = .noRoot) := by
  unfold fsolve at h
  split at h
  · cases h; exact .inl ⟨‹_›, rfl⟩
  · split at h <;> cases h
    exact .inr ⟨‹_›, rfl⟩

/-- The chord formula, with the inverse it uses. -/
theorem chord_eq_ok : chord C P Q = .ok R ↔ ∃ i, finv C.fld (P.x ^^^ Q.x) = .ok i ∧
    R = slopePoint C.fld (fmul C.fld (P.y ^^^ Q.y) i)
      (C.a ^^^ fsqr C.fld (fmul C.fld (P.y ^^^ Q.y) i) ^^^ fmul C.fld (P.y ^^^ Q.y) i ^^^ P.x ^^^ Q.x) P := by
  simp only [chord, except_bind_eq_ok, except_pure_eq, Except.ok.injEq, eq_comm (a := R)]

/-- The tangent formula, with the inverse it uses. -/
theorem tangent_eq_ok : tangent C P = .ok R ↔ ∃ i, finv C.fld P.x = .ok i ∧
    R = slopePoint C.fld (P.x ^^^ fmul C.fld P.y i)
      (fsqr C.fld (P.x ^^^ fmul C.fld P.y i) ^^^ C.a ^^^ (P.x ^^^ fmul C.fld P.y i)) P := by
  simp only [tangent, except_bind_eq_ok, except_pure_eq, Except.ok.injEq, eq_comm (a := R)]

/-- The five cases of the group law, in the rule's order. -/
theorem padd_cases :
    (pisid P = true ∧ padd C P Q = .ok Q) ∨
    (pisid P = false ∧ pisid Q = true ∧ padd C P Q = .ok P) ∨
    (pisid P = false ∧ pisid Q = false ∧ P.x ≠ Q.x ∧ padd C P Q = chord C P Q) ∨
    (pisid P = false ∧ pisid Q = false ∧ P.x = Q.x ∧ (P.y ≠ Q.y ∨ P.x = 0) ∧ padd C P Q = .ok Point.identity) ∨
    (pisid P = false ∧ pisid Q = false ∧ P = Q ∧ P.x ≠ 0 ∧ padd C P Q = tangent C P) := by
  cases hP : pisid P with
  | true => exact .inl ⟨rfl, by simp [padd, hP]⟩
  | false =>
    cases hQ : pisid Q with
    | true => exact .inr (.inl ⟨rfl, rfl, by simp [padd, hP, hQ]⟩)
    | false =>
      by_cases hx : P.x = Q.x
      · by_cases hy : P.y ≠ Q.y ∨ P.x = 0
        · refine .inr (.inr (.inr (.inl ⟨rfl, rfl, hx, hy, ?_⟩)))
          unfold padd
          rw [if_neg (by simp [hP]), if_neg (by simp [hQ]), if_neg (by simp [hx]), if_pos hy]
        · obtain ⟨hy', hx'⟩ := not_or.1 hy
          have hPQ : P = Q := by
            cases P; cases Q; simp_all
          refine .inr (.inr (.inr (.inr ⟨rfl, rfl, hPQ, hx', ?_⟩)))
          unfold padd
          rw [if_neg (by simp [hP]), if_neg (by simp [hQ]), if_neg (by simp [hx]), if_neg hy]
      · exact .inr (.inr (.inl ⟨rfl, rfl, hx, by simp [padd, hP, hQ, hx]⟩))

/-! ### Table and scan -/

@[simp] theorem ptp2_zero : ptp2 C P 0 = .ok P := rfl

theorem ptp2_succ_eq_ok {e : Nat} : ptp2 C P (e + 1) = .ok R ↔ ∃ D, padd C P P = .ok D ∧ ptp2 C D e = .ok R := by
  simp [ptp2, pdbl, except_bind_eq_ok]

theorem ptwp_eq_ok : ptwp C P Q = .ok R ↔ ∃ D, padd C P P = .ok D ∧ padd C D Q = .ok R := by
  simp [ptwp, pdbl, except_bind_eq_ok]

/-- The negated half is the negation of the positive half. -/
theorem precompute_eq_ok {w : Nat} {T N : List Point} :
    precompute C P w = .ok (T, N) ↔ precomputePos C P w = .ok T ∧ N = T.map pneg := by
  simp only [precompute, except_bind_eq_ok, except_pure_eq, Except.ok.injEq, Prod.mk.injEq]
  constructor
  · rintro ⟨T', h, rfl, rfl⟩; exact ⟨h, rfl⟩
  · rintro ⟨h, rfl⟩; exact ⟨T, h, rfl, rfl⟩

/-- Everything a scan computes. -/
theorem mulpos_eq_ok {k : Nat} {r : ScanResult} : mulpos C P k = .ok r ↔
    r.width = scalarWidth k ∧ r.naf = windowNaf r.width k ∧ precompute C P r.width = .ok (r.tpos, r.tneg) ∧
      scan C r.tpos r.tneg r.width r.naf.reverse = .ok r.point := by
  simp only [mulpos, except_bind_eq_ok, except_pure_eq, Except.ok.injEq]
  constructor
  · rintro ⟨⟨T, N⟩, h, R, hR, rfl⟩; exact ⟨rfl, rfl, h, hR⟩
  · rcases r with ⟨R, w, T, N, naf⟩
    rintro ⟨hw, hn, h, hR⟩
    simp only at hw hn h hR
    subst hw hn
    exact ⟨(T, N), h, R, hR, rfl⟩

end Sys2Proof.Machine
end

