-- ==== Sys2Proof/Laws/Encoding.lean ====
section
/-! SUPPORT. The fields of a built word, and how masks act on it. -/

namespace Sys2Proof

variable (op op' : BitVec 8) (rd ra rb rd' ra' rb' : BitVec 4) (imm imm' : BitVec 12)

/-- Field `lo`, `n` bits wide, of a word given by its bits below and above. -/
theorem mkWord_toNat : (mkWord op rd ra rb imm).toNat =
    op.toNat * 2 ^ 24 + rd.toNat * 2 ^ 20 + ra.toNat * 2 ^ 16 + rb.toNat * 2 ^ 12 + imm.toNat := by
  have h1 := rd.isLt
  have h2 := ra.isLt
  have h3 := rb.isLt
  have h4 := imm.isLt
  simp only [mkWord, BitVec.toNat_append]
  rw [← Nat.shiftLeft_add_eq_or_of_lt h1, ← Nat.shiftLeft_add_eq_or_of_lt h2, ← Nat.shiftLeft_add_eq_or_of_lt h3,
    ← Nat.shiftLeft_add_eq_or_of_lt h4]
  simp only [Nat.shiftLeft_eq]
  omega

@[simp] theorem opField_mkWord : opField (mkWord op rd ra rb imm) = op := by
  apply BitVec.eq_of_toNat_eq
  have h0 := op.isLt
  have h1 := rd.isLt
  have h2 := ra.isLt
  have h3 := rb.isLt
  have h4 := imm.isLt
  simp only [opField, BitVec.extractLsb'_toNat, mkWord_toNat, Nat.shiftRight_eq_div_pow]
  omega

@[simp] theorem rdField_mkWord : rdField (mkWord op rd ra rb imm) = rd := by
  apply BitVec.eq_of_toNat_eq
  have h1 := rd.isLt
  have h2 := ra.isLt
  have h3 := rb.isLt
  have h4 := imm.isLt
  simp only [rdField, BitVec.extractLsb'_toNat, mkWord_toNat, Nat.shiftRight_eq_div_pow]
  omega

@[simp] theorem raField_mkWord : raField (mkWord op rd ra rb imm) = ra := by
  apply BitVec.eq_of_toNat_eq
  have h2 := ra.isLt
  have h3 := rb.isLt
  have h4 := imm.isLt
  simp only [raField, BitVec.extractLsb'_toNat, mkWord_toNat, Nat.shiftRight_eq_div_pow]
  omega

@[simp] theorem rbField_mkWord : rbField (mkWord op rd ra rb imm) = rb := by
  apply BitVec.eq_of_toNat_eq
  have h3 := rb.isLt
  have h4 := imm.isLt
  simp only [rbField, BitVec.extractLsb'_toNat, mkWord_toNat, Nat.shiftRight_eq_div_pow]
  omega

@[simp] theorem immField_mkWord : immField (mkWord op rd ra rb imm) = imm := by
  apply BitVec.eq_of_toNat_eq
  have h4 := imm.isLt
  simp only [immField, BitVec.extractLsb'_toNat, mkWord_toNat, Nat.shiftRight_eq_div_pow]
  omega

/-- Every word is built from its own fields. -/
theorem mkWord_fields (w : Word) : mkWord (opField w) (rdField w) (raField w) (rbField w) (immField w) = w := by
  apply BitVec.eq_of_toNat_eq
  have h := w.isLt
  simp only [mkWord_toNat, opField, rdField, raField, rbField, immField, BitVec.extractLsb'_toNat,
    Nat.shiftRight_eq_div_pow]
  omega

/-- A mask built from fields acts field by field. -/
@[simp] theorem mkWord_and : mkWord op rd ra rb imm &&& mkWord op' rd' ra' rb' imm' =
    mkWord (op &&& op') (rd &&& rd') (ra &&& ra') (rb &&& rb') (imm &&& imm') := by
  unfold mkWord
  rw [BitVec.and_append, BitVec.and_append, BitVec.and_append, BitVec.and_append]

/-- Two built words are equal exactly when their fields are. -/
@[simp] theorem mkWord_inj : mkWord op rd ra rb imm = mkWord op' rd' ra' rb' imm' ↔
    op = op' ∧ rd = rd' ∧ ra = ra' ∧ rb = rb' ∧ imm = imm' := by
  constructor
  · intro h
    refine ⟨?_, ?_, ?_, ?_, ?_⟩
    · simpa using congrArg opField h
    · simpa using congrArg rdField h
    · simpa using congrArg raField h
    · simpa using congrArg rbField h
    · simpa using congrArg immField h
  · rintro ⟨rfl, rfl, rfl, rfl, rfl⟩; rfl

@[simp] theorem fieldFReg_fregField (r : FReg) : fieldFReg (fregField r) = r := by revert r; decide

@[simp] theorem fieldPReg_pregField (r : PReg) : fieldPReg (pregField r) = r := by revert r; decide

/-- A point register's field has its top bit 0 (R92). -/
@[simp] theorem pregField_and_top (r : PReg) : pregField r &&& 8#4 = 0#4 := by revert r; decide

end Sys2Proof
end

