-- ==== Sys2Proof/Laws/Faults.lean ====
section
/-! SUPPORT. When a command faults, said once of how every command ends. -/

namespace Sys2Proof.Machine

/-- Different causes have different codes (R301). -/
theorem code_inj {c d : FaultCode} : c.code = d.code ↔ c = d := by
  cases c <;> cases d <;> decide

/-- A count is never the next count. -/
theorem count_ne (n : Word) : n + 1 ≠ n := by bv_omega

/-- A command that ends in `finish` faults with a cause exactly when its own work raises that cause; the work itself never
counts a command. -/
theorem faults_iff_of_finish {i : Instr} {s : State} {r : Attempt} {c : FaultCode} (h : exec i s = finish i s r)
    (hc : ∀ u, r = .ok u → u.cseq = s.cseq) : s.Faults i c ↔ r = .error c := by
  unfold State.Faults
  rw [h]
  cases r with
  | ok u =>
    simp only [finish_ok, Host.Outcome.next.injEq, reduceCtorEq, iff_false]
    intro e
    have e' : u.cseq + 1 = s.cseq := congrArg State.cseq e
    rw [hc u rfl] at e'
    exact count_ne _ e'
  | error d =>
    simp only [finish_error, State.takeFault, Host.Outcome.next.injEq, Except.error.injEq]
    constructor
    · intro e
      exact code_inj.1 (congrArg State.errcode e)
    · rintro rfl; rfl

end Sys2Proof.Machine
end

