-- ==== Sys2Proof/Laws/PerInstr.lean ====
section
/-! SUPPORT. A family of facts stated of every command and proved constructor by constructor. -/

namespace Sys2Proof.Laws

/-- The encoded word carries the opcode of the row of the opcode map whose mnemonic is the command's (R95). -/
def EncodedOpcode.Statement (i : Instr) : Prop :=
  opcodeMap.any (fun r => r.op == opField (encode i) && r.mnemonic == Machine.mnemonic i) = true

/-- The statement from the opcode and the mnemonic, given apart. -/
theorem EncodedOpcode.of_row {i : Instr} (op : BitVec 8) (name : String) (hop : opField (encode i) = op)
    (hname : Machine.mnemonic i = name)
    (hrow : opcodeMap.any (fun r => r.op == op && r.mnemonic == name) = true) : EncodedOpcode.Statement i := by
  subst hop hname; exact hrow

theorem EncodedOpcode.nop : EncodedOpcode.Statement (.nop) :=
  of_row 0x00#8 "NOP" (opField_mkWord ..) rfl (by decide)

theorem EncodedOpcode.setfield : EncodedOpcode.Statement (.setfield) :=
  of_row 0x01#8 "SETFIELD" (opField_mkWord ..) rfl (by decide)

theorem EncodedOpcode.setcurve (ra rb : FReg) : EncodedOpcode.Statement (.setcurve ra rb) :=
  of_row 0x02#8 "SETCURVE" (opField_mkWord ..) rfl (by decide)

theorem EncodedOpcode.fload (rd : FReg) : EncodedOpcode.Statement (.fload rd) :=
  of_row 0x03#8 "FLOAD" (opField_mkWord ..) rfl (by decide)

theorem EncodedOpcode.fstore (ra : FReg) : EncodedOpcode.Statement (.fstore ra) :=
  of_row 0x04#8 "FSTORE" (opField_mkWord ..) rfl (by decide)

theorem EncodedOpcode.fldi (rd : FReg) (imm : Nat) : EncodedOpcode.Statement (.fldi rd imm) :=
  of_row 0x05#8 "FLDI" (opField_mkWord ..) rfl (by decide)

theorem EncodedOpcode.fmov (rd ra : FReg) : EncodedOpcode.Statement (.fmov rd ra) :=
  of_row 0x06#8 "FMOV" (opField_mkWord ..) rfl (by decide)

theorem EncodedOpcode.fadd (rd ra rb : FReg) : EncodedOpcode.Statement (.fadd rd ra rb) :=
  of_row 0x10#8 "FADD" (opField_mkWord ..) rfl (by decide)

theorem EncodedOpcode.fmul (rd ra rb : FReg) : EncodedOpcode.Statement (.fmul rd ra rb) :=
  of_row 0x11#8 "FMUL" (opField_mkWord ..) rfl (by decide)

theorem EncodedOpcode.fsqr (rd ra : FReg) : EncodedOpcode.Statement (.fsqr rd ra) :=
  of_row 0x12#8 "FSQR" (opField_mkWord ..) rfl (by decide)

theorem EncodedOpcode.fred (rd ra : FReg) : EncodedOpcode.Statement (.fred rd ra) :=
  of_row 0x13#8 "FRED" (opField_mkWord ..) rfl (by decide)

theorem EncodedOpcode.finv (rd ra : FReg) : EncodedOpcode.Statement (.finv rd ra) :=
  of_row 0x14#8 "FINV" (opField_mkWord ..) rfl (by decide)

theorem EncodedOpcode.ftrace (ra : FReg) : EncodedOpcode.Statement (.ftrace ra) :=
  of_row 0x15#8 "FTRACE" (opField_mkWord ..) rfl (by decide)

theorem EncodedOpcode.fsolve (rd ra : FReg) : EncodedOpcode.Statement (.fsolve rd ra) :=
  of_row 0x16#8 "FSOLVE" (opField_mkWord ..) rfl (by decide)

theorem EncodedOpcode.ftstb (ra : FReg) (imm : Nat) : EncodedOpcode.Statement (.ftstb ra imm) :=
  of_row 0x18#8 "FTSTB" (opField_mkWord ..) rfl (by decide)

theorem EncodedOpcode.fsetb (rd ra : FReg) (imm : Nat) : EncodedOpcode.Statement (.fsetb rd ra imm) :=
  of_row 0x19#8 "FSETB" (opField_mkWord ..) rfl (by decide)

theorem EncodedOpcode.fclrb (rd ra : FReg) (imm : Nat) : EncodedOpcode.Statement (.fclrb rd ra imm) :=
  of_row 0x1A#8 "FCLRB" (opField_mkWord ..) rfl (by decide)

theorem EncodedOpcode.fblen (ra : FReg) : EncodedOpcode.Statement (.fblen ra) :=
  of_row 0x1B#8 "FBLEN" (opField_mkWord ..) rfl (by decide)

theorem EncodedOpcode.fshr (rd ra : FReg) (imm : Nat) : EncodedOpcode.Statement (.fshr rd ra imm) :=
  of_row 0x1C#8 "FSHR" (opField_mkWord ..) rfl (by decide)

theorem EncodedOpcode.feq (ra rb : FReg) : EncodedOpcode.Statement (.feq ra rb) :=
  of_row 0x1D#8 "FEQ" (opField_mkWord ..) rfl (by decide)

theorem EncodedOpcode.fisz (ra : FReg) : EncodedOpcode.Statement (.fisz ra) :=
  of_row 0x1E#8 "FISZ" (opField_mkWord ..) rfl (by decide)

theorem EncodedOpcode.fless (ra rb : FReg) : EncodedOpcode.Statement (.fless ra rb) :=
  of_row 0x1F#8 "FLESS" (opField_mkWord ..) rfl (by decide)

theorem EncodedOpcode.pset (rd : PReg) (ra rb : FReg) : EncodedOpcode.Statement (.pset rd ra rb) :=
  of_row 0x20#8 "PSET" (opField_mkWord ..) rfl (by decide)

theorem EncodedOpcode.pgetx (rd : FReg) (ra : PReg) : EncodedOpcode.Statement (.pgetx rd ra) :=
  of_row 0x21#8 "PGETX" (opField_mkWord ..) rfl (by decide)

theorem EncodedOpcode.pgety (rd : FReg) (ra : PReg) : EncodedOpcode.Statement (.pgety rd ra) :=
  of_row 0x22#8 "PGETY" (opField_mkWord ..) rfl (by decide)

theorem EncodedOpcode.pmov (rd ra : PReg) : EncodedOpcode.Statement (.pmov rd ra) :=
  of_row 0x23#8 "PMOV" (opField_mkWord ..) rfl (by decide)

theorem EncodedOpcode.padd (rd ra rb : PReg) : EncodedOpcode.Statement (.padd rd ra rb) :=
  of_row 0x24#8 "PADD" (opField_mkWord ..) rfl (by decide)

theorem EncodedOpcode.pdbl (rd ra : PReg) : EncodedOpcode.Statement (.pdbl rd ra) :=
  of_row 0x25#8 "PDBL" (opField_mkWord ..) rfl (by decide)

theorem EncodedOpcode.pneg (rd ra : PReg) : EncodedOpcode.Statement (.pneg rd ra) :=
  of_row 0x26#8 "PNEG" (opField_mkWord ..) rfl (by decide)

theorem EncodedOpcode.pcmp (rd : FReg) (ra : PReg) : EncodedOpcode.Statement (.pcmp rd ra) :=
  of_row 0x27#8 "PCMP" (opField_mkWord ..) rfl (by decide)

theorem EncodedOpcode.pexp (rd : PReg) (ra : FReg) : EncodedOpcode.Statement (.pexp rd ra) :=
  of_row 0x28#8 "PEXP" (opField_mkWord ..) rfl (by decide)

theorem EncodedOpcode.peq (ra rb : PReg) : EncodedOpcode.Statement (.peq ra rb) :=
  of_row 0x29#8 "PEQ" (opField_mkWord ..) rfl (by decide)

theorem EncodedOpcode.pisid (ra : PReg) : EncodedOpcode.Statement (.pisid ra) :=
  of_row 0x2A#8 "PISID" (opField_mkWord ..) rfl (by decide)

theorem EncodedOpcode.pchk (ra : PReg) : EncodedOpcode.Statement (.pchk ra) :=
  of_row 0x2B#8 "PCHK" (opField_mkWord ..) rfl (by decide)

theorem EncodedOpcode.pmul (rd ra : PReg) (rb : FReg) (neg : Bool) : EncodedOpcode.Statement (.pmul rd ra rb neg) :=
  of_row 0x2C#8 "PMUL" (opField_mkWord ..) rfl (by decide)

theorem EncodedOpcode.wsize (ra : FReg) : EncodedOpcode.Statement (.wsize ra) :=
  of_row 0x30#8 "WSIZE" (opField_mkWord ..) rfl (by decide)

theorem EncodedOpcode.wsizei (imm : Nat) : EncodedOpcode.Statement (.wsizei imm) :=
  of_row 0x31#8 "WSIZEI" (opField_mkWord ..) rfl (by decide)

theorem EncodedOpcode.wnaf (ra : FReg) (imm : Nat) : EncodedOpcode.Statement (.wnaf ra imm) :=
  of_row 0x32#8 "WNAF" (opField_mkWord ..) rfl (by decide)

theorem EncodedOpcode.precomp (ra : PReg) (imm : Nat) : EncodedOpcode.Statement (.precomp ra imm) :=
  of_row 0x33#8 "PRECOMP" (opField_mkWord ..) rfl (by decide)

theorem EncodedOpcode.tblrd (rd : PReg) (neg : Bool) (idx : Fin 64) : EncodedOpcode.Statement (.tblrd rd neg idx) :=
  of_row 0x34#8 "TBLRD" (opField_mkWord ..) rfl (by decide)

theorem EncodedOpcode.mulpos (rd ra : PReg) (rb : FReg) : EncodedOpcode.Statement (.mulpos rd ra rb) :=
  of_row 0x35#8 "MULPOS" (opField_mkWord ..) rfl (by decide)

theorem EncodedOpcode.ptwp (rd ra rb : PReg) : EncodedOpcode.Statement (.ptwp rd ra rb) :=
  of_row 0x36#8 "PTWP" (opField_mkWord ..) rfl (by decide)

theorem EncodedOpcode.ptp2 (rd ra : PReg) (imm : Nat) : EncodedOpcode.Statement (.ptp2 rd ra imm) :=
  of_row 0x37#8 "PTP2" (opField_mkWord ..) rfl (by decide)

end Sys2Proof.Laws
end

