-- ==== Sys2Proof/Laws/Step.lean ====
section
/-! SUPPORT. What a step can do, said once: the one inversion lemma of each layer between a step and a command. -/

namespace Sys2Proof.Machine

variable {s t : State} {off : Nat} {size : AccessSize} {v w : Word}

/-- A step is idle, or performs the oldest pending access. -/
theorem step_next_iff : step s = .next t ↔
    (s.pending = [] ∧ t = s) ∨
    ∃ a rest, s.pending = a :: rest ∧ hostAccess a { s with pending := rest } = .next t := by
  unfold step
  cases h : s.pending with
  | nil => simp [eq_comm]
  | cons a rest => simp

/-- A step with an access pending is that access. -/
theorem step_cons {a : HostAccess} {rest : List HostAccess} (h : s.pending = a :: rest) :
    step s = hostAccess a { s with pending := rest } := by
  simp [step, h]

/-- An access goes on exactly when it is inside the window, one aligned word, and its own effect goes on. -/
theorem onWindow_next_iff {o : Host.Outcome State Fault Refusal} : onWindow off size o = .next t ↔
    off < Config.windowBytes ∧ admitted off size = true ∧ o = .next t := by
  unfold onWindow
  by_cases h : Config.windowBytes ≤ off
  · simp [h, Nat.not_lt.2 h]
  · cases h2 : admitted off size <;> simp [h, Nat.lt_of_not_le h]

/-- A read that goes on returns a register's value, or a free draw at a reserved offset. -/
theorem hostRead_next_iff : hostRead off size s = .next t ↔
    off < Config.windowBytes ∧ admitted off size = true ∧
      ((∃ r, windowReg off = some r ∧ t = s.reply (s.readReg r)) ∨ (windowReg off = none ∧ t = s.replyFree)) := by
  unfold hostRead
  rw [onWindow_next_iff]
  refine and_congr_right fun _ => and_congr_right fun _ => ?_
  cases windowReg off with
  | none => simp [eq_comm (a := t)]
  | some r => simp [eq_comm (a := t)]

/-- A write that goes on is the register's write, or is ignored at a reserved offset. -/
theorem hostWrite_next_iff : hostWrite off size v s = .next t ↔
    off < Config.windowBytes ∧ admitted off size = true ∧
      ((∃ r, windowReg off = some r ∧ writeReg r v s = .next t) ∨ (windowReg off = none ∧ t = s)) := by
  unfold hostWrite
  rw [onWindow_next_iff]
  refine and_congr_right fun _ => and_congr_right fun _ => ?_
  cases windowReg off with
  | none => simp [eq_comm (a := t)]
  | some r => simp

/-- A write to `CMD` is dropped, records an illegal word, or executes the command. -/
theorem issueCommand_next_iff : issueCommand w s = .next t ↔
    (s.fault = true ∧ t = s) ∨
    (s.fault = false ∧ ∃ i, decode w = .ok i ∧ exec i s = .next t) ∨
    (s.fault = false ∧ (∃ e, decode w = .error e) ∧ t = s.takeFault .illegalCommand w) := by
  unfold issueCommand
  cases hf : s.fault
  · cases hd : decode w <;> simp [eq_comm]
  · simp [eq_comm]

end Sys2Proof.Machine
end

