-- ==== Sys2Proof/Tests/Slice0.lean ====
section
/-! SUPPORT. Tests. Expected values are the examples printed in the spec's rules, or words written out from R92 to R95;
the last part shows, for each statement with hypotheses, a state and operands that meet them. -/

namespace Sys2Proof.Tests

-- The tests are checked one after another: each waits for the kernel, and waiting threads would add up.
set_option Elab.async false
open Sys2Proof Sys2Proof.Machine

/-! ### WellFormed: an immediate of 13 bits is refused, one of 12 accepted (R94) -/

theorem test_wf_refuses_wide_immediates :
    Instr.wellFormed (.fldi 0 4096) = false ∧ Instr.wellFormed (.ftstb 0 4096) = false ∧
    Instr.wellFormed (.fsetb 0 0 4096) = false ∧ Instr.wellFormed (.fclrb 0 0 4096) = false ∧
    Instr.wellFormed (.fshr 0 0 4096) = false ∧ Instr.wellFormed (.wsizei 4096) = false ∧
    Instr.wellFormed (.wnaf 0 4096) = false ∧ Instr.wellFormed (.precomp 0 4096) = false ∧
    Instr.wellFormed (.ptp2 0 0 4096) = false ∧ Instr.wellFormed (.fldi 0 4095) = true := by decide

/-! ### Decode: words written out field by field -/

/-- `op rd ra rb imm12`, as R95's encoding column has them. -/
theorem test_decode_system :
    decode 0b00000000000000000000000000000000 = .ok .nop ∧
    decode 0b00000001000000000000000000000000 = .ok .setfield ∧
    decode 0b00000010000000110100000000000000 = .ok (.setcurve 3 4) ∧
    decode 0b00000011101000000000000000000000 = .ok (.fload 10) ∧
    decode 0b00000100000010110000000000000000 = .ok (.fstore 11) ∧
    decode 0b00000101110000000000100000000001 = .ok (.fldi 12 0x801) ∧
    decode 0b00000110110111100000000000000000 = .ok (.fmov 13 14) := by decide

theorem test_decode_field_arithmetic :
    decode 0b00010000000100100011000000000000 = .ok (.fadd 1 2 3) ∧
    decode 0b00010001111111101101000000000000 = .ok (.fmul 15 14 13) ∧
    decode 0b00010010010001010000000000000000 = .ok (.fsqr 4 5) ∧
    decode 0b00010011010001010000000000000000 = .ok (.fred 4 5) ∧
    decode 0b00010100010001010000000000000000 = .ok (.finv 4 5) ∧
    decode 0b00010101000001010000000000000000 = .ok (.ftrace 5) ∧
    decode 0b00010110010001010000000000000000 = .ok (.fsolve 4 5) := by decide

theorem test_decode_field_bits :
    decode 0b00011000000001010000111111111111 = .ok (.ftstb 5 4095) ∧
    decode 0b00011001010001010000000000011111 = .ok (.fsetb 4 5 31) ∧
    decode 0b00011010010001010000000000011111 = .ok (.fclrb 4 5 31) ∧
    decode 0b00011011000001010000000000000000 = .ok (.fblen 5) ∧
    decode 0b00011100010001010000000000000010 = .ok (.fshr 4 5 2) ∧
    decode 0b00011101000001010110000000000000 = .ok (.feq 5 6) ∧
    decode 0b00011110000001010000000000000000 = .ok (.fisz 5) ∧
    decode 0b00011111000001010110000000000000 = .ok (.fless 5 6) := by decide

theorem test_decode_point :
    decode 0b00100000011110011010000000000000 = .ok (.pset 7 9 10) ∧
    decode 0b00100001100100100000000000000000 = .ok (.pgetx 9 2) ∧
    decode 0b00100010100100100000000000000000 = .ok (.pgety 9 2) ∧
    decode 0b00100011000100100000000000000000 = .ok (.pmov 1 2) ∧
    decode 0b00100100000100100011000000000000 = .ok (.padd 1 2 3) ∧
    decode 0b00100101000100100000000000000000 = .ok (.pdbl 1 2) ∧
    decode 0b00100110000100100000000000000000 = .ok (.pneg 1 2) := by decide

theorem test_decode_point_rest :
    decode 0b00100111100100100000000000000000 = .ok (.pcmp 9 2) ∧
    decode 0b00101000000110010000000000000000 = .ok (.pexp 1 9) ∧
    decode 0b00101001000000100011000000000000 = .ok (.peq 2 3) ∧
    decode 0b00101010000001110000000000000000 = .ok (.pisid 7) ∧
    decode 0b00101011000001110000000000000000 = .ok (.pchk 7) ∧
    decode 0b00101100000100101001000000000000 = .ok (.pmul 1 2 9 false) ∧
    decode 0b00101100000100101001000000000001 = .ok (.pmul 1 2 9 true) := by decide

theorem test_decode_wnaf :
    decode 0b00110000000010010000000000000000 = .ok (.wsize 9) ∧
    decode 0b00110001000000000000100100000001 = .ok (.wsizei 2305) ∧
    decode 0b00110010000010010000000000010000 = .ok (.wnaf 9 16) ∧
    decode 0b00110011000001010000000000001000 = .ok (.precomp 5 8) ∧
    decode 0b00110100010100000000100000111111 = .ok (.tblrd 5 true 63) ∧
    decode 0b00110101000100101001000000000000 = .ok (.mulpos 1 2 9) ∧
    decode 0b00110110000100100011000000000000 = .ok (.ptwp 1 2 3) ∧
    decode 0b00110111000100100000111111111111 = .ok (.ptp2 1 2 4095) := by decide

/-- R96 (a) to (d): unassigned opcode, unused field, bit 3 of a point field, reserved bits of `PMUL` and `TBLRD`. -/
theorem test_decode_rejects :
    decode 0x07000000 = .error .unassignedOpcode ∧ decode 0x17000000 = .error .unassignedOpcode ∧
    decode 0x38000000 = .error .unassignedOpcode ∧ decode 0x00000001 = .error .reservedBitSet ∧
    decode 0x2C800000 = .error .reservedBitSet ∧ decode 0x2C000002 = .error .reservedBitSet ∧
    decode 0x34000040 = .error .reservedBitSet := by decide

/-! ### Small states -/

/-- The field of the toy curve T5: `m = 5`, `f = 0x25`. -/
def field5 : State := { State.reset with fv := true, fldM := 5, fldNk := 1, fldK1 := 2 }

/-- The toy curve T5: `a = b = 1` over `field5`. -/
def curve5 : State := { field5 with cv := true, ca := 1, cb := 1 }

/-- The toy curve T7: `m = 7`, `f = 0x83`, `a = b = 1`. -/
def curve7 : State := { State.reset with fv := true, fldM := 7, fldNk := 1, fldK1 := 1, cv := true, ca := 1, cb := 1 }

/-- The command completes and its result passes the test. -/
def completes (i : Instr) (s : State) (ok : State → Bool) : Bool :=
  match exec i s with
  | .next t => t.cseq == s.cseq + 1 && t.fault == s.fault && ok t
  | _ => false

/-- The command ends in the fault with the code. -/
def faults (i : Instr) (s : State) (code : BitVec 8) : Bool :=
  match exec i s with
  | .next t => t.cseq == s.cseq && t.fault && t.errcode == code && t.faultcmd == encode i
  | _ => false

/-- `G = (0x06, 0x10)` in `P0`, `2G = (0x0A, 0x12)` in `P1` of T5, and three values in `F1`, `F2`, `F3`. -/
def points5 (a b c : FVal) : State :=
  ((((curve5.writeP 0 ⟨0x06, 0x10⟩).writeP 1 ⟨0x0A, 0x12⟩).writeF 1 a).writeF 2 b).writeF 3 c

/-! ### One step -/

/-- A word at the host's next access runs as the first command after reset. -/
theorem test_step_runs_first_command :
    (match step (State.reset.withFetchWord 32 0x3100000D) with
      | .next t => t.res == 3 && t.cseq == 1 && t.pending.isEmpty
      | _ => false) = true := by decide +kernel

/-- After a fault a command word is dropped (R312). -/
theorem test_step_drops_when_faulted :
    (match step ({ State.reset with fault := true, errcode := 2 }.withFetchWord 32 0) with
      | .next t => t.cseq == 0 && t.errcode == 2
      | _ => false) = true := by decide +kernel

/-! ### Examples of the rules, family by family -/

theorem test_nop : completes .nop State.reset (fun t => t.status == 0) = true := by decide +kernel

/-- R251. -/
theorem test_setfield :
    completes .setfield { State.reset with cfgM := 257, cfgNk := 1, cfgK1 := 12 }
      (fun t => t.status == 2 && t.fldM == 257 && t.fldK1 == 12 && t.fldK2 == 0 && t.fieldWords == 9) = true ∧
    faults .setfield { State.reset with cfgM := 257, cfgNk := 2, cfgK1 := 12 } 5 = true := by decide +kernel

/-- R252. -/
theorem test_setcurve :
    completes (.setcurve 0 1) ((field5.writeF 0 1).writeF 1 1) (fun t => t.status == 6) = true ∧
    faults (.setcurve 0 1) ((field5.writeF 0 1).writeF 1 0x25) 6 = true := by decide +kernel

/-- R130. -/
theorem test_fload :
    completes (.fload 1) { field5 with dbuf := (field5.dbuf.set 0 0x13F).set 1 0xFFFFFFFF }
      (fun t => t.f[(1 : FReg)] == 0x13F) = true := by decide +kernel

/-- R131. -/
theorem test_fstore :
    completes (.fstore 2) (({ field5 with fldM := 257, fldK1 := 12 }).writeF 2 (BitVec.ofNat 512 (2 ^ 256 + 5)))
      (fun t => t.dbuf[0] == 5 && t.dbuf[8] == 1 && t.dbuf[1] == 0) = true := by decide +kernel

/-- R132, R133. -/
theorem test_fldi_fmov :
    completes (.fldi 4 1) field5 (fun t => t.f[(4 : FReg)] == 1) = true ∧
    completes (.fmov 1 0) (field5.writeF 0 0x3F) (fun t => t.f[(1 : FReg)] == 0x3F) = true := by decide +kernel

/-- R134 to R136. -/
theorem test_fadd_fmul_fsqr :
    completes (.fadd 3 1 2) ((field5.writeF 1 0x1B).writeF 2 0x0D) (fun t => t.f[(3 : FReg)] == 0x16) = true ∧
    completes (.fmul 3 1 2) ((field5.writeF 1 0x13).writeF 2 0x0B) (fun t => t.f[(3 : FReg)] == 0x1C) = true ∧
    completes (.fsqr 1 1) (field5.writeF 1 0x1F) (fun t => t.f[(1 : FReg)] == 0x12) = true := by decide +kernel

/-- R137, R138: also the reducible modulus `0x23`. -/
theorem test_fred_finv :
    completes (.fred 2 1) (field5.writeF 1 0x3FF) (fun t => t.f[(2 : FReg)] == 0x13) = true ∧
    completes (.finv 2 1) (field5.writeF 1 0x13) (fun t => t.f[(2 : FReg)] == 0x1D) = true ∧
    faults (.finv 2 1) ({ field5 with fldK1 := 1 }.writeF 1 0x07) 7 = true := by decide +kernel

/-- R139, R140. -/
theorem test_ftrace_fsolve :
    completes (.ftrace 1) (field5.writeF 1 8) (fun t => t.res == 1) = true ∧
    completes (.fsolve 2 1) (field5.writeF 1 2) (fun t => t.f[(2 : FReg)] == 9) = true ∧
    faults (.fsolve 2 1) (field5.writeF 1 1) 9 = true ∧
    faults (.fsolve 2 1) ({ field5 with fldM := 8, fldK1 := 4 }.writeF 1 0) 8 = true := by decide +kernel

/-- R141 to R143. -/
theorem test_ftstb_fsetb_fclrb :
    completes (.ftstb 1 4) (field5.writeF 1 0x13) (fun t => t.res == 1) = true ∧
    completes (.ftstb 1 600) (field5.writeF 1 0x13) (fun t => t.res == 0) = true ∧
    completes (.fsetb 2 1 31) (field5.writeF 1 0x10) (fun t => t.f[(2 : FReg)] == 0x80000010) = true ∧
    faults (.fsetb 2 1 32) (field5.writeF 1 0x10) 0x0A = true ∧
    completes (.fclrb 2 1 0) (field5.writeF 1 0x13) (fun t => t.f[(2 : FReg)] == 0x12) = true := by decide +kernel

/-- R144, R145. -/
theorem test_fblen_fshr :
    completes (.fblen 1) (field5.writeF 1 (BitVec.ofNat 512 (2 ^ 256))) (fun t => t.res == 257) = true ∧
    completes (.fshr 2 1 2) (field5.writeF 1 0xAD) (fun t => t.f[(2 : FReg)] == 0x2B) = true ∧
    completes (.fshr 2 1 4095) (field5.writeF 1 0xAD) (fun t => t.f[(2 : FReg)] == 0) = true := by decide +kernel

/-- R146 to R148. -/
theorem test_feq_fisz_fless :
    completes (.feq 1 2) ((field5.writeF 1 0x25).writeF 2 0) (fun t => t.res == 0) = true ∧
    completes (.fisz 1) (field5.writeF 1 0x25) (fun t => t.res == 0) = true ∧
    completes (.fless 1 2) ((field5.writeF 1 0x0F).writeF 2 0x10) (fun t => t.res == 1) = true ∧
    completes (.fless 1 2) ((field5.writeF 1 0x10).writeF 2 0x1F) (fun t => t.res == 0) = true := by decide +kernel

/-- R180 to R183. -/
theorem test_pset_pget_pmov :
    completes (.pset 2 1 2) (points5 0x06 0x35 0) (fun t => t.p[(2 : PReg)] == ⟨0x06, 0x10⟩) = true ∧
    completes (.pgetx 3 0) (points5 0 0 0) (fun t => t.f[(3 : FReg)] == 0x06) = true ∧
    completes (.pgety 3 0) (points5 0 0 0) (fun t => t.f[(3 : FReg)] == 0x10) = true ∧
    completes (.pmov 2 1) (points5 0 0 0) (fun t => t.p[(2 : PReg)] == ⟨0x0A, 0x12⟩) = true := by decide +kernel

/-- R184 to R186. -/
theorem test_padd_pdbl_pneg :
    completes (.padd 2 0 1) (points5 0 0 0) (fun t => t.p[(2 : PReg)] == ⟨0x1D, 0x1B⟩) = true ∧
    completes (.pdbl 0 0) (points5 0 0 0) (fun t => t.p[(0 : PReg)] == ⟨0x0A, 0x12⟩) = true ∧
    completes (.pneg 2 0) (points5 0 0 0) (fun t => t.p[(2 : PReg)] == ⟨0x06, 0x16⟩) = true := by decide +kernel

/-- R187, R188. -/
theorem test_pcmp_pexp :
    completes (.pcmp 1 1) (points5 0 0 0) (fun t => t.f[(1 : FReg)] == 0x0B) = true ∧
    completes (.pexp 2 1) (points5 0x0B 0 0) (fun t => t.p[(2 : PReg)] == ⟨0x0A, 0x12⟩) = true ∧
    faults (.pexp 2 1) (points5 0x06 0 0) 9 = true := by decide +kernel

/-- R189 to R191: `(0x06, 0x11)` is not on the curve. -/
theorem test_peq_pisid_pchk :
    completes (.peq 1 1) (points5 0 0 0) (fun t => t.res == 1) = true ∧
    completes (.pisid 0) (points5 0 0 0) (fun t => t.res == 0) = true ∧
    completes (.pchk 0) (points5 0 0 0) (fun t => t.res == 1) = true ∧
    completes (.pchk 0) (curve5.writeP 0 ⟨0x06, 0x11⟩) (fun t => t.res == 0) = true := by decide +kernel

/-- R192. -/
theorem test_pmul :
    completes (.pmul 2 0 1 false) (points5 11 0 0) (fun t => t.p[(2 : PReg)] == ⟨0x00, 0x01⟩) = true ∧
    completes (.pmul 2 0 1 true) (points5 3 0 0) (fun t => t.p[(2 : PReg)] == ⟨0x1D, 0x06⟩ && t.tp == ⟨0x06, 0x16⟩) =
      true := by decide +kernel

/-- R222, R223. -/
theorem test_wsize_wsizei :
    completes (.wsize 1) (field5.writeF 1 5000) (fun t => t.res == 3) = true ∧
    completes (.wsizei 2304) State.reset (fun t => t.res == 7) = true ∧
    completes (.wsizei 2305) State.reset (fun t => t.res == 8) = true := by decide +kernel

/-- R221. -/
theorem test_wnaf :
    completes (.wnaf 1 3) (field5.writeF 1 5000) (fun t => t.nafInfo == 0x00030004 && t.naf[0] == 0x00010003 &&
      t.naf[1] == 0xFFFF0003 && t.naf[2] == 0xFFFD0002 && t.naf[3] == 0x00010002) = true ∧
    faults (.wnaf 1 17) (field5.writeF 1 5000) 0x0A = true := by decide +kernel

/-- R224, R219: T7. -/
theorem test_precomp :
    completes (.precomp 0 4) (curve7.writeP 0 ⟨0x02, 0x5C⟩) (fun t => t.tblInfo == 0x00000404 &&
      t.tpos[1] == ⟨0x4E, 0x2B⟩ && t.tpos[3] == ⟨0x6A, 0x1B⟩ && t.tneg[2] == ⟨0x48, 0x4A⟩) = true := by decide +kernel

/-- R225. -/
theorem test_tblrd :
    completes (.tblrd 3 true 2) { curve7 with tv := true, tw := 4, tneg := curve7.tneg.set 2 ⟨0x48, 0x4A⟩ }
      (fun t => t.p[(3 : PReg)] == ⟨0x48, 0x4A⟩) = true ∧
    faults (.tblrd 3 false 4) { curve7 with tv := true, tw := 4 } 0x0A = true ∧
    faults (.tblrd 3 false 0) curve7 0x0B = true := by decide +kernel

/-- R226, R218: the worked example on T7. -/
theorem test_mulpos :
    completes (.mulpos 1 0 2) ((curve7.writeP 0 ⟨0x02, 0x5C⟩).writeF 2 5000)
      (fun t => t.p[(1 : PReg)] == ⟨0x79, 0x44⟩ && t.tblInfo == 0x00000203 && t.nafInfo == 0x00030004) = true := by
  decide +kernel

/-- R227, R228. -/
theorem test_ptwp_ptp2 :
    completes (.ptwp 2 0 0) (points5 0 0 0) (fun t => t.p[(2 : PReg)] == ⟨0x1D, 0x1B⟩) = true ∧
    completes (.ptp2 1 0 2) (points5 0 0 0) (fun t => t.p[(1 : PReg)] == ⟨0x08, 0x17⟩) = true := by decide +kernel

/-- R315: the first fault in the fixed order. -/
theorem test_fault_priority :
    faults (.fsetb 0 1 4095) field5 4 = true ∧ faults (.padd 0 0 0) field5 3 = true ∧
    faults (.padd 0 0 0) State.reset 2 = true := by decide +kernel

/-- R43: the constants agree with the parameters. -/
theorem test_parameters :
    State.reset.readReg .param0 =
      BitVec.ofNat 32 (Config.lmax + Config.numF * 2 ^ 8 + Config.numP * 2 ^ 16 + Config.wmax * 2 ^ 24) ∧
    State.reset.readReg .param1 = BitVec.ofNat 32 (Config.nafMax + Config.tblMax * 2 ^ 16) := by decide +kernel

/-- R63: byte 1 of `ID` is `2`. -/
theorem test_window_byte : State.reset.windowByte 1 = some 0x32 := by decide +kernel

/-! ### Witnesses: a state and operands that meet the hypotheses of each statement that has some

The number is the statement's in OBLIGATIONS.json. -/

/-- T5 with every register valid (`F[i] = i`, every point `G`), the table of `G` of width 2, the NAF of 1. -/
def ready : State :=
  { curve5 with
    f := Vector.ofFn fun i => BitVec.ofNat 512 i.val
    fval := Vector.replicate 16 true
    p := Vector.replicate 8 ⟨0x06, 0x10⟩
    pval := Vector.replicate 8 true
    nv := true
    nafLen := 1
    nafW := 2
    naf := curve5.naf.set 0 0x00010000
    tv := true
    tw := 2
    tp := ⟨0x06, 0x10⟩
    tpos := curve5.tpos.set 0 ⟨0x06, 0x10⟩
    tneg := curve5.tneg.set 0 ⟨0x06, 0x16⟩ }

/-- `ready` after a fault. -/
def faulted : State := { ready with fault := true, errcode := 7, faultcmd := 0x14000000 }

/-- The field of T5. -/
def fieldCtx5 : FieldCtx := ⟨5, 0x25⟩

/-- The curve T5. -/
def curveCtx5 : CurveCtx := ⟨fieldCtx5, 1, 1⟩

/-- O1 and O2. -/
theorem witness_encoding : Instr.wellFormed (.ptp2 7 7 4095) = true ∧ decode 0x37770FFF = .ok (.ptp2 7 7 4095) := by
  decide

/-- O5. -/
theorem witness_step_runs :
    ({ ready with pending := [.write 0x018 .word 0x00000000] }).pending = [.write 0x018 .word 0x00000000] ∧
    ready.fault = false ∧ decode 0x00000000 = .ok .nop := by decide +kernel

/-- O6: both kinds of illegal word. -/
theorem witness_illegal_word :
    ready.fault = false ∧ decode 0xFF000000 = .error .unassignedOpcode ∧ decode 0x00000800 = .error .reservedBitSet := by
  decide +kernel

/-- O7: a faulted state, the first and the last listed offset, and a write that resets. -/
theorem witness_faulted :
    faulted.fault = true ∧ windowReg 0x000 = some .id ∧ windowReg 0x800 = some (.naf 256) ∧
    (1 : Word).getLsbD 0 = true := by decide +kernel

/-- O8: a state for each value of `FV`, `NV` and `TV`. -/
theorem witness_window_reads :
    State.reset.fv = false ∧ State.reset.nv = false ∧ State.reset.tv = false ∧
    ready.fv = true ∧ ready.nv = true ∧ ready.tv = true := by decide +kernel

/-- O9: a read of a listed and of a reserved offset, both with a next state. -/
theorem witness_reads :
    windowReg 0x13C ≠ none ∧ windowReg 0x140 = none ∧
    (∃ t, hostRead 0x13C .word ready = .next t) ∧ ∃ t, hostRead 0x140 .word ready = .next t :=
  ⟨by decide, by decide, ⟨_, rfl⟩, ⟨_, rfl⟩⟩

/-- O10: the read-only registers at the ends of the window's blocks. -/
theorem witness_read_only :
    windowReg 0x000 = some .id ∧ WindowReg.readOnly .id = true ∧ windowReg 0x064 = some .fldL ∧
    WindowReg.readOnly .fldL = true ∧ windowReg 0x400 = some (.naf 0) ∧ WindowReg.readOnly (.naf 0) = true ∧
    windowReg 0x800 = some (.naf 256) ∧ WindowReg.readOnly (.naf 256) = true := by decide

/-- O11: the ends of the four reserved ranges. -/
theorem witness_reserved_ranges :
    windowReg 0x044 = none ∧ windowReg 0x04C = none ∧ windowReg 0x068 = none ∧ windowReg 0x0FC = none ∧
    windowReg 0x140 = none ∧ windowReg 0x3FC = none ∧ windowReg 0x804 = none ∧ windowReg 0xFFC = none := by decide

/-- O12: the first and last offsets of each clause. -/
theorem witness_unadmitted :
    (0 : Nat) < 0x1000 ∧ AccessSize.byte ≠ .word ∧ (0xFFF : Nat) < 0x1000 ∧ (0xFFF : Nat) % 4 ≠ 0 ∧
    (0x1000 : Nat) ≤ 0x1000 := by decide

/-- O13: a word of each kind. -/
theorem witness_ctrl : (0xFFFFFFFF : Word).getLsbD 0 = true ∧ (0xFFFFFFFE : Word).getLsbD 0 = false := by decide

/-- O15: an illegal word of opcode 0, and a faulted state. -/
theorem witness_nop : (1 : Word) >>> 24 = 0 ∧ (1 : Word) ≠ 0 ∧ faulted.fault = true := by decide +kernel

/-- The least degree, staged as a trinomial. -/
def staged2 : State := { ready with cfgM := 2, cfgNk := 1, cfgK1 := 1 }

/-- The largest degree, staged as a pentanomial. -/
def staged511 : State := { ready with cfgM := 511, cfgNk := 3, cfgK1 := 510, cfgK2 := 509, cfgK3 := 508 }

/-- O16: the least and the largest degree, one in each form. -/
theorem witness_setfield :
    (2 ≤ staged2.cfgM.toNat ∧ staged2.cfgM.toNat ≤ 511 ∧ staged2.cfgNk = 1 ∧ 0 < staged2.cfgK1.toNat ∧
      staged2.cfgK1.toNat < staged2.cfgM.toNat) ∧
    (2 ≤ staged511.cfgM.toNat ∧ staged511.cfgM.toNat ≤ 511 ∧ staged511.cfgNk = 3 ∧
      staged511.cfgK1.toNat < staged511.cfgM.toNat ∧ staged511.cfgK2.toNat < staged511.cfgK1.toNat ∧
      staged511.cfgK3.toNat < staged511.cfgK2.toNat ∧ 0 < staged511.cfgK3.toNat) := by decide +kernel

/-- O16: a staged set that is refused in each way: `m` just below and just above its bounds, a wrong `NK`, and exponents
out of order in each form. -/
theorem witness_setfield_refused :
    ({ staged2 with cfgM := 1 }).cfgM.toNat < 2 ∧ 511 < ({ staged2 with cfgM := 512 }).cfgM.toNat ∧
    (({ staged2 with cfgNk := 2 }).cfgNk ≠ 1 ∧ ({ staged2 with cfgNk := 2 }).cfgNk ≠ 3) ∧
    (staged2.cfgNk = 1 ∧ ¬({ staged2 with cfgK1 := 2 }).cfgK1.toNat < staged2.cfgM.toNat) ∧
    (staged511.cfgNk = 3 ∧ ¬0 < ({ staged511 with cfgK3 := 0 }).cfgK3.toNat) := by decide +kernel

/-- O17: `b = 1` and `b = f`. -/
theorem witness_setcurve :
    ready.fv = true ∧ ready.fval[(0 : FReg)] = true ∧ ready.fval[(1 : FReg)] = true ∧
    red ready.fieldCtx ready.f[(1 : FReg)].toNat ≠ 0 ∧
    red (ready.writeF 1 0x25).fieldCtx (ready.writeF 1 0x25).f[(1 : FReg)].toNat = 0 := by decide +kernel

/-- O18, O20, O21, O24, O25, O28: contexts and sources; the last index `FSETB` admits. -/
theorem witness_ready_sources :
    ready.fv = true ∧ ready.cv = true ∧ ready.fval[(1 : FReg)] = true ∧ ready.fval[(2 : FReg)] = true ∧
    ready.pval[(0 : PReg)] = true ∧ ready.pval[(1 : PReg)] = true ∧
    31 < 32 * ((ready.fldM.toNat + 31) / 32) ∧ 31 < 32 * ready.fieldWords := by decide +kernel

/-- O21: the four commands complete, so each has the next state its clause speaks of. -/
theorem witness_bit_primitives :
    (∃ t, exec (.fload 1) ready = .next t) ∧ (∃ t, exec (.fsetb 1 2 31) ready = .next t) ∧
    (∃ t, exec (.fclrb 1 2 4095) ready = .next t) ∧ ∃ t, exec (.fshr 1 2 4095) ready = .next t :=
  ⟨⟨_, rfl⟩, ⟨_, rfl⟩, ⟨_, rfl⟩, ⟨_, rfl⟩⟩

/-- O22: an invertible operand, and one with a root. -/
theorem witness_reduced_field :
    finv ready.fieldCtx ready.f[(2 : FReg)].toNat = .ok 0x12 ∧
    fsolve ready.fieldCtx ready.f[(2 : FReg)].toNat = .ok 9 := by decide +kernel

/-- O26: a sum, a double, a fused sum and a repeated double that have a value. -/
theorem witness_group_law :
    padd ready.curveCtx ready.p[(0 : PReg)].val ready.p[(1 : PReg)].val = .ok ⟨0x0A, 0x12⟩ ∧
    padd ready.curveCtx ⟨0x0A, 0x12⟩ ready.p[(1 : PReg)].val = .ok ⟨0x1D, 0x1B⟩ ∧
    ptp2 ready.curveCtx ready.p[(0 : PReg)].val 2 = .ok ⟨0x08, 0x17⟩ := by decide +kernel

/-- O27: each of the four forms. -/
theorem witness_compression :
    pcompress ready.curveCtx ready.p[(0 : PReg)].val = .ok 0x06 ∧
    pexpand ready.curveCtx ready.f[(11 : FReg)].toNat = .ok ⟨0x0A, 0x12⟩ ∧
    (ready.writeP 0 ⟨0, 0⟩).p[(0 : PReg)] = ⟨0, 0⟩ ∧
    red ready.fieldCtx ready.f[(0 : FReg)].toNat = 0 := by decide +kernel

/-- O29: the scalar 0, and a scalar whose scan has a value. -/
theorem witness_scalar_multiplication :
    ready.f[(0 : FReg)] = 0 ∧ ready.f[(1 : FReg)] ≠ 0 ∧
    mulpos ready.curveCtx ready.p[(0 : PReg)].val ready.f[(1 : FReg)].toNat =
      .ok ⟨⟨0x06, 0x10⟩, 2, [⟨0x06, 0x10⟩], [⟨0x06, 0x16⟩], [0x00010000]⟩ := by decide +kernel

/-- O30: a table of one entry, and an index inside it. -/
theorem witness_naf_and_table :
    precompute ready.curveCtx ready.p[(0 : PReg)].val 2 = .ok ([⟨0x06, 0x10⟩], [⟨0x06, 0x16⟩]) ∧
    ready.tv = true ∧ 0 < 2 ^ (ready.tw.toNat - 2) := by decide +kernel

/-- O36: a faulted step that is not a reset, and one that is. -/
theorem witness_sticky :
    faulted.fault = true ∧ (∃ t, step faulted = .next t) ∧
    ∃ t, step { faulted with pending := [.resetInput] } = .next t :=
  ⟨by decide +kernel, ⟨_, rfl⟩, ⟨_, rfl⟩⟩

/-- O37: a command that completes. -/
theorem witness_command_completes : ∃ t, exec (.pmov 1 0) ready = .next t := ⟨_, rfl⟩

/-- O39 to O43: T5's field is sound and proper, of odd degree; the least degree, an even one, has a proper field too. -/
theorem witness_field : fieldCtx5.Proper ∧ fieldCtx5.m % 2 = 1 ∧ FieldCtx.Proper ⟨2, 7⟩ ∧ (2 : Nat) % 2 = 0 := by
  unfold FieldCtx.Proper FieldCtx.Irreducible FieldCtx.Sound
  decide +kernel

/-- O44 to O48: T5 is a proper curve, `2G` is on it, and its trace condition holds. -/
theorem witness_curve :
    curveCtx5.Proper ∧ OnCurve curveCtx5 ⟨0x0A, 0x12⟩ ∧ OnCurve curveCtx5 Point.identity ∧
    padd curveCtx5 ⟨0x0A, 0x12⟩ ⟨0x06, 0x10⟩ = .ok ⟨0x1D, 0x1B⟩ ∧
    ftrace fieldCtx5 0x0A = ftrace fieldCtx5 1 ∧ pcompress curveCtx5 ⟨0x0A, 0x12⟩ = .ok 0x0B ∧
    pexpand curveCtx5 0x0B = .ok ⟨0x0A, 0x12⟩ := by
  unfold CurveCtx.Proper CurveCtx.Sound FieldCtx.Irreducible FieldCtx.Sound OnCurve Point.Reduced
  decide +kernel

/-- O50, O51: a scalar in range, the recodings at the narrowest and the widest width, and the widest digits. -/
theorem witness_naf_range :
    (5000 : Nat) < 2 ^ 512 ∧ windowNaf 3 3 = [0x00030000] ∧ windowNaf 16 1 = [0x00010000] ∧ windowNaf 2 0 = [] ∧
    (-32767 : Int).natAbs ≤ 32767 ∧ (32767 : Int).natAbs ≤ 32767 :=
  ⟨Nat.lt_trans (by decide : 5000 < 2 ^ 13) (Nat.pow_lt_pow_right (by decide) (by decide)), by decide +kernel,
    by decide +kernel, by decide +kernel, by decide, by decide⟩

/-- O52: a table of two entries on T7. -/
theorem witness_precompute :
    precompute curve7.curveCtx ⟨0x02, 0x5C⟩ 3 =
      .ok ([⟨0x02, 0x5C⟩, ⟨0x4E, 0x2B⟩], [⟨0x02, 0x5E⟩, ⟨0x4E, 0x65⟩]) := by decide +kernel

/-- The 22 multiples of `G` on T5, from the identity up. -/
def multiples5 : List Point :=
  [⟨0, 0⟩, ⟨6, 16⟩, ⟨10, 18⟩, ⟨29, 27⟩, ⟨8, 23⟩, ⟨20, 13⟩, ⟨30, 11⟩, ⟨22, 20⟩, ⟨19, 15⟩, ⟨25, 4⟩, ⟨14, 9⟩, ⟨0, 1⟩,
    ⟨14, 7⟩, ⟨25, 29⟩, ⟨19, 28⟩, ⟨22, 2⟩, ⟨30, 21⟩, ⟨20, 25⟩, ⟨8, 31⟩, ⟨29, 6⟩, ⟨10, 24⟩, ⟨6, 22⟩]

/-- The point of a multiple of `G`. -/
def multiple5 (n : ZMod 22) : Point := multiples5.getD n.val Point.identity

/-- O53: the 22 points of T5 are such a group. -/
theorem witness_scan_group :
    multiple5 0 = Point.identity ∧ (∀ x, pneg (multiple5 x) = multiple5 (-x)) ∧
    ∀ x y, padd curveCtx5 (multiple5 x) (multiple5 y) = .ok (multiple5 (x + y)) := by decide +kernel

/-- O19, O23, O35, O55, O56: the contexts of `ready` keep their promises. -/
theorem witness_context_inv : ready.ContextInv :=
  ⟨by decide +kernel, by decide +kernel, by decide +kernel, by decide +kernel, by decide +kernel, by decide +kernel,
    by decide +kernel⟩

/-- O19, O35, O56: the registers and the table of `ready` are within their bounds. -/
theorem witness_register_inv : ready.RegisterInv := by
  refine ⟨by decide +kernel, ?_, fun _ => ⟨?_, ?_⟩⟩ <;> unfold PointReg.Reduced <;> decide +kernel

/-- O23: `F2` of `ready` has the inverse `0x12`. -/
theorem witness_finv :
    (0x12 : Nat) < 2 ^ ready.fldM.toNat ∧
    fmul ready.fieldCtx (red ready.fieldCtx ready.f[(2 : FReg)].toNat) 0x12 = 1 := by decide +kernel

/-- O19: `FSTORE` completes on `ready`, and `FLOAD` after it. -/
theorem witness_store_load :
    ∃ t u, exec (.fstore 1) ready = .next t ∧ t.cseq = ready.cseq + 1 ∧ exec (.fload 2) t = .next u :=
  ⟨_, _, rfl, rfl, rfl⟩

/-- O35: T5's modulus as `ready` holds it is irreducible, and each of the three ways to fail an inversion occurs. -/
theorem witness_no_inverse :
    ready.fieldCtx.Irreducible ∧ red ready.fieldCtx ready.f[(0 : FReg)].toNat = 0 ∧
    (ready.writeP 0 ⟨0, 1⟩).p[(0 : PReg)] = ⟨0, 1⟩ ∧
    (red ready.fieldCtx ready.f[(1 : FReg)].toNat = 1 ∧ ftrace ready.fieldCtx ({ ready with ca := 0 }).ca.toNat = 0) := by
  unfold FieldCtx.Irreducible
  decide +kernel

/-- O57: `ready` holds the recoding of 1. -/
theorem witness_naf_inv : ready.NafInv := fun _ => ⟨by decide, by decide, by decide, 1, Nat.one_lt_two_pow (by decide), by decide +kernel⟩

/-- O58: `ready` holds the table of `G` of width 2. -/
theorem witness_table_inv : ready.TableInv := fun _ =>
  ⟨by decide, by decide, [⟨0x06, 0x10⟩], [⟨0x06, 0x16⟩], by decide +kernel, by decide, by decide, by decide +kernel⟩

/-- O59: an empty fault record, and a full one. -/
theorem witness_fault_inv : ready.FaultInv ∧ faulted.FaultInv :=
  ⟨⟨fun _ => by decide, fun h => absurd h (by decide)⟩, fun h => absurd h (by decide),
    fun _ => ⟨⟨.noInverse, rfl⟩, fun h => absurd h (by decide), fun h => absurd (by decide) (h (.finv 0 0))⟩⟩

/-- O55 to O59: `ready` takes a step. -/
theorem witness_step : ∃ t, step (ready.withFetchWord 32 0) = .next t := ⟨_, rfl⟩

/-- `State.reset` with another value in three fields that no access can observe while `CV`, `NV` and `TV` are 0. -/
def resetOther : State := { State.reset with ca := 1, nafLen := 5, tw := 3 }

/-- O60: two different states with the same observable parts. -/
theorem witness_unobservable : State.reset.SameObservable resetOther ∧ State.reset ≠ resetOther :=
  ⟨{ fval := rfl
     f := fun _ _ => rfl
     pval := rfl
     p := fun _ _ => rfl
     res := rfl
     fv := rfl
     fld := fun _ => ⟨rfl, rfl, rfl, rfl, rfl⟩
     cfg := ⟨rfl, rfl, rfl, rfl, rfl⟩
     cv := rfl
     coeffs := fun h => absurd h (by decide)
     dbuf := rfl
     nv := rfl
     nafHead := fun h => absurd h (by decide)
     naf := fun _ _ _ => rfl
     tv := rfl
     tableHead := fun h => absurd h (by decide)
     table := fun _ _ _ => ⟨rfl, rfl⟩
     record := ⟨rfl, rfl, rfl⟩
     cseq := rfl
     bus := ⟨rfl, rfl, rfl⟩ },
    fun h => absurd (congrArg State.nafLen h) (by decide)⟩

end Sys2Proof.Tests
end

/-! Proofs. The arithmetic the invariants rest on: reduction gives reduced values, the point functions give reduced
points, the table has its length, and a recoding fits its buffer. -/

namespace Sys2Proof.Machine

section
variable {K : FieldCtx} {C : CurveCtx} {P Q R : Point}

/-! ### Reduced values -/

/-- A bit length is at most `n` exactly for values below `2^n` (R10). -/
theorem blen_le_iff {v n : Nat} : blen v ≤ n ↔ v < 2 ^ n := by
  rcases eq_or_ne v 0 with rfl | hv
  · simp
  · rw [blen_of_ne_zero hv, Nat.succ_le_iff, Nat.log2_lt hv]

/-- The bit length is the size of the library, whose lemmas serve for it. -/
theorem blen_eq_size (v : Nat) : blen v = Nat.size v :=
  eq_of_forall_ge_iff fun _ => blen_le_iff.trans Nat.size_le.symm

/-- XOR with a value of the same bit length cancels the leading bit. -/
theorem blen_xor_lt {u v n : Nat} (hu : blen u = n + 1) (hv : blen v = n + 1) : blen (u ^^^ v) < n + 1 := by
  have top : ∀ {x}, blen x = n + 1 → x < 2 ^ (n + 1) ∧ x.testBit n = true := fun {x} hx => by
    have hlt : x < 2 ^ (n + 1) := blen_le_iff.1 hx.le
    have hge : 2 ^ n ≤ x := Nat.le_of_not_lt fun h => by have := blen_le_iff.2 h; omega
    exact ⟨hlt, Nat.testBit_of_two_pow_le_and_two_pow_add_one_gt hge hlt⟩
  obtain ⟨hu, hun⟩ := top hu
  obtain ⟨hv, hvn⟩ := top hv
  have hlt : u ^^^ v < 2 ^ (n + 1) := Nat.xor_lt_two_pow hu hv
  refine Nat.lt_succ_of_le (blen_le_iff.2 (Nat.lt_pow_two_of_testBit _ fun i hi => ?_))
  rcases hi.eq_or_lt with rfl | hi
  · simp [hun, hvn]
  · exact Nat.testBit_lt_two_pow (hlt.trans_le (Nat.pow_le_pow_right (by decide) hi))

/-- Each pass of R122 shortens the value, so `blen v` passes bring it to at most `m` bits. -/
theorem blen_redLoop_le (hK : K.Sound) : ∀ {n v : Nat}, blen v ≤ n → blen (redLoop K n v) ≤ K.m
  | 0, v, h => by simp only [redLoop_zero]; omega
  | n + 1, v, h => by
    rw [redLoop_succ]
    split
    · next hm =>
      have hf := hK.2
      have hne : K.f ≠ 0 := fun h0 => by simp [h0] at hf
      have hs : blen (K.f <<< (blen v - 1 - K.m)) = blen v - 1 + 1 := by
        rw [blen_eq_size, Nat.size_shiftLeft hne, ← blen_eq_size]; omega
      have hlt := blen_xor_lt (u := v) (by omega) hs
      exact blen_redLoop_le hK (by omega)
    · omega

/-- Reduction answers a reduced value (R122). -/
theorem red_lt (hK : K.Sound) (v : Nat) : red K v < 2 ^ K.m := blen_le_iff.1 (blen_redLoop_le hK le_rfl)

theorem fmul_lt (hK : K.Sound) (a b : Nat) : fmul K a b < 2 ^ K.m := red_lt hK _

theorem fsqr_lt (hK : K.Sound) (a : Nat) : fsqr K a < 2 ^ K.m := fmul_lt hK a a

theorem finv_lt (hK : K.Sound) {a r : Nat} (h : finv K a = .ok r) : r < 2 ^ K.m := by
  obtain ⟨-, g, rfl⟩ := finv_sound h
  exact red_lt hK g

theorem htrLoop_lt (hK : K.Sound) {a : Nat} (ha : a < 2 ^ K.m) :
    ∀ (n : Nat) {z : Nat}, z < 2 ^ K.m → htrLoop K a n z < 2 ^ K.m
  | 0, _, hz => hz
  | n + 1, _, _ => htrLoop_lt hK ha n (Nat.xor_lt_two_pow (fsqr_lt hK _) ha)

theorem fsolve_lt (hK : K.Sound) {a z : Nat} (h : fsolve K a = .ok z) : z < 2 ^ K.m := by
  obtain ⟨-, -, rfl⟩ := fsolve_eq_ok.1 h
  exact htrLoop_lt hK (red_lt hK _) _ (red_lt hK _)

theorem ftrace_lt (a : Nat) : ftrace K a < 2 := Nat.mod_lt _ (by decide)

/-- Replacing bit 0 keeps a value reduced (R176). -/
theorem withLowBit_lt (hK : K.Sound) {x t : Nat} (hx : x < 2 ^ K.m) (ht : t < 2) : withLowBit x t < 2 ^ K.m := by
  obtain ⟨n, hn⟩ : ∃ n, K.m = n + 1 := ⟨K.m - 1, by have := hK.1; omega⟩
  rw [hn, Nat.pow_succ] at hx ⊢
  unfold withLowBit
  omega

/-! ### Reduced points -/

theorem identity_reduced : Point.identity.Reduced K := ⟨Nat.two_pow_pos _, Nat.two_pow_pos _⟩

theorem pneg_reduced (hP : P.Reduced K) : (pneg P).Reduced K := ⟨hP.1, Nat.xor_lt_two_pow hP.1 hP.2⟩

theorem slopePoint_reduced (hK : K.Sound) {l xr : Nat} (hx : xr < 2 ^ K.m) (hP : P.Reduced K) :
    (slopePoint K l xr P).Reduced K :=
  ⟨hx, Nat.xor_lt_two_pow (Nat.xor_lt_two_pow (fmul_lt hK _ _) hx) hP.2⟩

/-- A sum of reduced points is reduced (R171). -/
theorem padd_reduced (hC : C.Sound) (hP : P.Reduced C.fld) (hQ : Q.Reduced C.fld) (h : padd C P Q = .ok R) :
    R.Reduced C.fld := by
  obtain ⟨hK, ha, -, -⟩ := hC
  rcases padd_cases (C := C) (P := P) (Q := Q) with
    ⟨-, e⟩ | ⟨-, -, e⟩ | ⟨-, -, -, e⟩ | ⟨-, -, -, -, e⟩ | ⟨-, -, -, -, e⟩ <;> rw [e] at h
  · cases h; exact hQ
  · cases h; exact hP
  · obtain ⟨i, -, rfl⟩ := chord_eq_ok.1 h
    have hl := fmul_lt hK (P.y ^^^ Q.y) i
    exact slopePoint_reduced hK (Nat.xor_lt_two_pow (Nat.xor_lt_two_pow (Nat.xor_lt_two_pow
      (Nat.xor_lt_two_pow ha (fsqr_lt hK _)) hl) hP.1) hQ.1) hP
  · cases h; exact identity_reduced
  · obtain ⟨i, -, rfl⟩ := tangent_eq_ok.1 h
    have hl := Nat.xor_lt_two_pow hP.1 (fmul_lt hK P.y i)
    exact slopePoint_reduced hK (Nat.xor_lt_two_pow (Nat.xor_lt_two_pow (fsqr_lt hK _) ha) hl) hP

theorem ptwp_reduced (hC : C.Sound) (hP : P.Reduced C.fld) (hQ : Q.Reduced C.fld) (h : ptwp C P Q = .ok R) :
    R.Reduced C.fld := by
  obtain ⟨D, hD, h⟩ := ptwp_eq_ok.1 h
  exact padd_reduced hC (padd_reduced hC hP hP hD) hQ h

theorem ptp2_reduced (hC : C.Sound) :
    ∀ {e : Nat} {P : Point}, P.Reduced C.fld → ptp2 C P e = .ok R → R.Reduced C.fld
  | 0, _, hP, h => by cases h; exact hP
  | e + 1, _, hP, h => by
    obtain ⟨D, hD, h⟩ := ptp2_succ_eq_ok.1 h
    exact ptp2_reduced hC (padd_reduced hC hP hP hD) h

/-- A compressed point is a reduced value (R176). -/
theorem pcompress_lt (hC : C.Sound) (hP : P.Reduced C.fld) {c : Nat} (h : pcompress C P = .ok c) :
    c < 2 ^ C.fld.m := by
  unfold pcompress at h
  split at h
  · cases h; exact Nat.two_pow_pos _
  · obtain ⟨i, -, h⟩ := except_bind_eq_ok.1 h
    cases h
    exact withLowBit_lt hC.1 hP.1 (ftrace_lt _)

theorem expandX_lt (hC : C.Sound) {c : Nat} (hc : c < 2 ^ C.fld.m) : expandX C c < 2 ^ C.fld.m := by
  unfold expandX
  split
  · exact withLowBit_lt hC.1 hc (by decide)
  · exact withLowBit_lt hC.1 hc (by decide)

/-- An expanded point is reduced (R177). -/
theorem pexpand_reduced (hC : C.Sound) {c : Nat} (h : pexpand C c = .ok R) : R.Reduced C.fld := by
  unfold pexpand at h
  split at h
  · cases h; exact identity_reduced
  · simp only [pexpandReduced, except_bind_eq_ok] at h
    obtain ⟨_, -, _, -, h⟩ := h
    cases h
    exact ⟨expandX_lt hC (red_lt hC.1 _), fmul_lt hC.1 _ _⟩

/-! ### The table and the scan -/

/-- Every point of the list is reduced. -/
def AllReduced (K : FieldCtx) (T : List Point) : Prop := ∀ A ∈ T, A.Reduced K

theorem oddMultiples_length {D : Point} : ∀ {n : Nat} {A : Point} {T : List Point},
    oddMultiples C D n A = .ok T → T.length = n
  | 0, _, _, h => by cases h; rfl
  | n + 1, _, _, h => by
    simp only [oddMultiples, except_bind_eq_ok] at h
    obtain ⟨_, -, _, hT, h⟩ := h
    cases h
    simp [oddMultiples_length hT]

theorem oddMultiples_reduced (hC : C.Sound) {D : Point} (hD : D.Reduced C.fld) :
    ∀ {n : Nat} {A : Point} {T : List Point}, A.Reduced C.fld → oddMultiples C D n A = .ok T → AllReduced C.fld T
  | 0, _, _, _, h => by cases h; simp [AllReduced]
  | n + 1, _, _, hA, h => by
    simp only [oddMultiples, except_bind_eq_ok] at h
    obtain ⟨B, hB, _, hT, h⟩ := h
    cases h
    have hB := padd_reduced hC hA hD hB
    exact List.forall_mem_cons.2 ⟨hB, oddMultiples_reduced hC hD hB hT⟩

/-- The positive half: one point, or the odd multiples after it. -/
theorem precomputePos_cases {w : Nat} {T : List Point} (h : precomputePos C P w = .ok T) :
    (2 ^ (w - 2) = 1 ∧ T = [P]) ∨
    ∃ D Ts, padd C P P = .ok D ∧ oddMultiples C D (2 ^ (w - 2) - 1) P = .ok Ts ∧ T = P :: Ts := by
  have := Nat.two_pow_pos (w - 2)
  unfold precomputePos at h
  split at h
  · cases h; exact .inl ⟨by omega, rfl⟩
  · simp only [except_bind_eq_ok] at h
    obtain ⟨D, hD, Ts, hTs, h⟩ := h
    cases h
    exact .inr ⟨D, Ts, hD, hTs, rfl⟩

/-- Both halves of a table have `2^(w-2)` entries (R219). -/
theorem precompute_length {w : Nat} {T N : List Point} (h : precompute C P w = .ok (T, N)) :
    T.length = 2 ^ (w - 2) ∧ N.length = 2 ^ (w - 2) := by
  obtain ⟨hpre, rfl⟩ := precompute_eq_ok.1 h
  have hpos := Nat.two_pow_pos (w - 2)
  have hT : T.length = 2 ^ (w - 2) := by
    rcases precomputePos_cases hpre with ⟨h1, rfl⟩ | ⟨D, Ts, -, hTs, rfl⟩
    · simp [h1]
    · rw [List.length_cons, oddMultiples_length hTs]; omega
  exact ⟨hT, by rw [List.length_map, hT]⟩

/-- A table of a reduced point is reduced (R219). -/
theorem precompute_reduced (hC : C.Sound) (hP : P.Reduced C.fld) {w : Nat} {T N : List Point}
    (h : precompute C P w = .ok (T, N)) : AllReduced C.fld T ∧ AllReduced C.fld N := by
  obtain ⟨hpre, rfl⟩ := precompute_eq_ok.1 h
  have hT : AllReduced C.fld T := by
    rcases precomputePos_cases hpre with ⟨-, rfl⟩ | ⟨D, Ts, hD, hTs, rfl⟩
    · simpa [AllReduced] using hP
    · exact List.forall_mem_cons.2 ⟨hP, oddMultiples_reduced hC (padd_reduced hC hP hP hD) hP hTs⟩
  exact ⟨hT, List.forall_mem_map.2 fun A hA => pneg_reduced (hT A hA)⟩

theorem AllReduced.getD {T : List Point} (hT : AllReduced K T) (n : Nat) : (T.getD n Point.identity).Reduced K := by
  rw [List.getD_eq_getElem?_getD]
  cases h : T[n]? with
  | none => exact identity_reduced
  | some A => exact hT A (List.mem_of_getElem? h)

section
variable {T N : List Point} (hT : AllReduced C.fld T) (hN : AllReduced C.fld N)
include hT hN

theorem tableEntry_reduced (d : Int) : (tableEntry T N d).Reduced C.fld := by
  unfold tableEntry
  split
  · exact hN.getD _
  · exact hT.getD _

theorem topDigit_reduced (hC : C.Sound) {w : Nat} {e : Word} {r : Point × Nat} (h : topDigit C T N w e = .ok r) :
    r.1.Reduced C.fld := by
  have htab : AllReduced C.fld (if digitOf e < 0 then N else T) := by
    split
    · exact hN
    · exact hT
  unfold topDigit at h
  simp only at h
  split at h
  · obtain ⟨R, hR, h⟩ := except_bind_eq_ok.1 h
    cases h
    exact padd_reduced hC (htab.getD _) (htab.getD _) hR
  · cases h; exact htab.getD _

theorem scanDigits_reduced (hC : C.Sound) : ∀ {es : List Word} {A : Point}, A.Reduced C.fld →
    scanDigits C T N es A = .ok R → R.Reduced C.fld
  | [], _, hA, h => by cases h; exact hA
  | e :: es, _, hA, h => by
    simp only [scanDigits, scanDigit, except_bind_eq_ok] at h
    obtain ⟨S, ⟨D, hD, hS⟩, h⟩ := h
    exact scanDigits_reduced hC (ptp2_reduced hC (ptwp_reduced hC hA (tableEntry_reduced hT hN _) hD) hS) h

theorem scan_reduced (hC : C.Sound) {w : Nat} {es : List Word} (h : scan C T N w es = .ok R) : R.Reduced C.fld := by
  match es with
  | [] => exact scanDigits_reduced hT hN hC identity_reduced h
  | [e] => exact scanDigits_reduced hT hN hC identity_reduced h
  | e :: e' :: es =>
    simp only [scan, except_bind_eq_ok] at h
    obtain ⟨top, htop, S, hS, h⟩ := h
    exact scanDigits_reduced hT hN hC (ptp2_reduced hC (topDigit_reduced hT hN hC htop) hS) h

end

/-- A scan of a reduced point is reduced (R218). -/
theorem mulpos_reduced (hC : C.Sound) (hP : P.Reduced C.fld) {k : Nat} {r : ScanResult} (h : mulpos C P k = .ok r) :
    r.point.Reduced C.fld := by
  obtain ⟨-, -, htab, hscan⟩ := mulpos_eq_ok.1 h
  obtain ⟨hT, hN⟩ := precompute_reduced hC hP htab
  exact scan_reduced hT hN hC hscan

/-- The width of a scan is one the table admits (R211, R212). -/
theorem scalarWidth_bounds (k : Nat) : 2 ≤ scalarWidth k ∧ scalarWidth k ≤ 8 := by
  have : (wsizeCutoffs.filter fun c => decide (c ≤ blen k)).length ≤ 6 := List.length_filter_le _ _
  unfold scalarWidth wclamp wsize
  omega

/-! ### The length of a recoding (R217) -/

/-- Every entry but the last takes two bit positions. -/
theorem compactLoop_length_le {k diff high : Nat} : ∀ {n i zeros : Nat} {out : List Word},
    2 * out.length + 1 ≤ i → 2 * out.length ≤ high →
      2 * (compactLoop k diff high n i zeros out).length ≤ high + 2
  | 0, i, zeros, out, _, h => by simp [compactLoop]; omega
  | n + 1, i, zeros, out, hi, h => by
    unfold compactLoop
    split
    · split
      · exact compactLoop_length_le (by simp; omega) (by simp; omega)
      · exact compactLoop_length_le (by omega) h
    · simp; omega

theorem blen_three_mul_le (k : Nat) : blen (3 * k) ≤ blen k + 2 := by
  have hk := lt_two_pow_blen k
  rw [blen_le_iff, Nat.pow_add]
  omega

theorem compactNaf_length_le {k : Nat} (hk : blen k ≤ 512) : (compactNaf k).length ≤ 257 := by
  unfold compactNaf
  split
  · simp
  · have hb := blen_three_mul_le k
    have := compactLoop_length_le (k := k) (diff := (3 * k) ^^^ k) (high := blen (3 * k) - 1) (n := blen (3 * k))
      (i := 1) (zeros := 0) (out := []) (by simp) (by simp)
    omega

theorem blen_shiftRight (k n : Nat) : blen (k >>> n) = blen k - n := by
  refine eq_of_forall_ge_iff fun b => ?_
  rw [blen_le_iff, Nat.shiftRight_eq_div_pow, Nat.div_lt_iff_lt_mul (Nat.two_pow_pos n), ← Nat.pow_add,
    ← blen_le_iff]
  omega

/-- Every entry but the last takes `w` bit positions. -/
theorem windowLoop_length_le {w : Nat} (hw : 0 < w) : ∀ {n k : Nat} {carry : Bool} {pos : Nat} {out : List Word},
    (windowLoop w n k carry pos out).length ≤ out.length + (blen k + w - pos) / w
  | 0, _, _, _, _ => by simp [windowLoop]
  | n + 1, k, carry, pos, out => by
    unfold windowLoop
    split
    · next hpos =>
      split
      · exact (windowLoop_length_le hw).trans (Nat.add_le_add_left (Nat.div_le_div_right (by omega)) _)
      · refine (windowLoop_length_le hw).trans ?_
        have hdiv : (blen k + w - pos) / w = (blen k - pos) / w + 1 := by
          rw [show blen k + w - pos = blen k - pos + w by omega, Nat.add_div_right _ hw]
        simp only [List.length_append, List.length_singleton, blen_shiftRight, hdiv]
        rw [show blen k - pos + w - w = blen k - pos by omega]
        omega
    · exact Nat.le_add_right _ _

theorem blen_toNat_le {n : Nat} (v : BitVec n) : blen v.toNat ≤ n := blen_le_iff.2 v.isLt

/-- The recoding of a 512-bit scalar fits the NAF buffer (R217). -/
theorem windowNaf_length_le {w k : Nat} (hw : 2 ≤ w) (hk : blen k ≤ 512) : (windowNaf w k).length ≤ 257 := by
  unfold windowNaf
  split
  · exact compactNaf_length_le hk
  · split
    · simp
    · calc (windowLoop w (blen k + 2) k false 0 []).length
          ≤ 0 + (blen k + w - 0) / w := windowLoop_length_le (by omega)
        _ = blen k / w + 1 := by rw [Nat.sub_zero, Nat.zero_add, Nat.add_div_right _ (by omega)]
        _ ≤ blen k / 2 + 1 := Nat.succ_le_succ (Nat.div_le_div_left hw (by decide))
        _ ≤ 257 := by omega

end

end Sys2Proof.Machine

/-! Proofs. Decoding loses nothing: the fault record holds the word that was written. -/

namespace Sys2Proof

/-! ### A legal word is the word of its command (R91 to R96) -/

@[simp] theorem fregField_fieldFReg (x : BitVec 4) : fregField (fieldFReg x) = x := by
  simp [fregField, fieldFReg]

/-- A point register's field is read back where its top bit is 0 (R92). -/
@[simp] theorem pregField_fieldPReg {x : BitVec 4} : pregField (fieldPReg x) = x ↔ x &&& 8#4 = 0#4 := by
  revert x; decide

@[simp] theorem immBits_immValue (w : Word) : immBits (immValue w) = immField w := by
  simp [immBits, immValue]

theorem immInRange_immValue (w : Word) : immInRange (immValue w) = true := decide_eq_true (immField w).isLt

/-- The immediate of `PMUL` is its `NEG` bit (R93). -/
theorem pmulImm_neg {x : BitVec 12} (h : x &&& 0xFFE#12 = 0#12) : pmulImm x[0] = x := by
  revert x; decide +kernel

/-- The immediate of `TBLRD` is its `NEG` bit and its index (R93). -/
theorem tblrdImm_idxValue {w : Word} (h : immField w &&& 0x7C0#12 = 0#12) :
    tblrdImm (immField w)[11] (idxValue w) = immField w := by
  have key : ∀ x : BitVec 12, x &&& 0x7C0#12 = 0#12 →
      (if x[11] then 0x800#12 else 0#12) ||| BitVec.ofNat 12 (x.toNat % 64) = x := by decide +kernel
  exact key _ h

/-- The row reads well-formed commands, and encoding them gives the word back. -/
def OpcodeRow.Faithful (r : OpcodeRow) : Prop :=
  ∀ w : Word, r.op = opField w → r.accepts w = true → encode (r.read w) = w ∧ (r.read w).wellFormed = true

/-- The test of a row, field by field (R91). -/
theorem accepts_iff {r : OpcodeRow} {w : Word} {op : BitVec 8} {rd ra rb : BitVec 4} {imm : BitVec 12}
    (hm : r.format.mask = mkWord op rd ra rb imm) : r.accepts w = true ↔
      opField w &&& op = r.op ∧ rdField w &&& rd = 0 ∧ raField w &&& ra = 0 ∧ rbField w &&& rb = 0 ∧
        immField w &&& imm = 0 := by
  have hw := mkWord_fields w
  rw [OpcodeRow.accepts, beq_iff_eq, OpcodeRow.matchBits, hm, ← mkWord_inj, ← mkWord_and, hw]

/-- A word is the encoding of a command when its fields are. -/
theorem eq_of_fields {w : Word} {op : BitVec 8} {rd ra rb : BitVec 4} {imm : BitVec 12} :
    mkWord op rd ra rb imm = w ↔
      op = opField w ∧ rd = rdField w ∧ ra = raField w ∧ rb = rbField w ∧ imm = immField w := by
  rw [← mkWord_inj, mkWord_fields]

theorem and_ones4 (x : BitVec 4) : x &&& 0xF#4 = x := BitVec.and_allOnes
theorem and_ones12 (x : BitVec 12) : x &&& 0xFFF#12 = x := BitVec.and_allOnes

/-- In each row the test leaves 0 in the fields the row does not read, and in the top bit of a point field, so that the
fields of the encoding are those of the word. -/
theorem systemRows_faithful : ∀ r ∈ systemRows, r.Faithful := by
  simp only [systemRows, List.forall_mem_cons, List.not_mem_nil]
  refine ⟨?_, ?_, ?_, ?_, ?_, ?_, ?_, nofun⟩
  all_goals
    intro w hop h
    rw [accepts_iff rfl] at h
    simp_all [encode, eq_of_fields, Instr.wellFormed, immInRange_immValue, and_ones4, and_ones12]

theorem fieldRows_faithful : ∀ r ∈ fieldRows, r.Faithful := by
  simp only [fieldRows, List.forall_mem_cons, List.not_mem_nil]
  refine ⟨?_, ?_, ?_, ?_, ?_, ?_, ?_, ?_, ?_, ?_, ?_, ?_, ?_, ?_, ?_, nofun⟩
  all_goals
    intro w hop h
    rw [accepts_iff rfl] at h
    simp_all [encode, eq_of_fields, Instr.wellFormed, immInRange_immValue, and_ones4, and_ones12]

theorem pointRows_faithful : ∀ r ∈ pointRows, r.Faithful := by
  simp only [pointRows, List.forall_mem_cons, List.not_mem_nil]
  refine ⟨?_, ?_, ?_, ?_, ?_, ?_, ?_, ?_, ?_, ?_, ?_, ?_, ?_, nofun⟩
  all_goals
    intro w hop h
    rw [accepts_iff rfl] at h
    simp_all [encode, eq_of_fields, Instr.wellFormed, and_ones4, and_ones12, pmulImm_neg]

theorem wnafRows_faithful : ∀ r ∈ wnafRows, r.Faithful := by
  simp only [wnafRows, List.forall_mem_cons, List.not_mem_nil]
  refine ⟨?_, ?_, ?_, ?_, ?_, ?_, ?_, ?_, nofun⟩
  all_goals
    intro w hop h
    rw [accepts_iff rfl] at h
    simp_all [encode, eq_of_fields, Instr.wellFormed, immInRange_immValue, and_ones4, and_ones12, tblrdImm_idxValue]

theorem opcodeMap_faithful : ∀ r ∈ opcodeMap, r.Faithful := by
  simp only [opcodeMap, List.forall_mem_append]
  exact ⟨⟨⟨systemRows_faithful, fieldRows_faithful⟩, pointRows_faithful⟩, wnafRows_faithful⟩

/-- A legal word is the encoding of the command it decodes to, which is well formed. -/
theorem encode_of_decode {w : Word} {i : Instr} (h : decode w = .ok i) : encode i = w ∧ i.wellFormed = true := by
  unfold decode at h
  split at h
  · cases h
  · next r hr =>
    split at h
    · next hacc =>
      cases h
      have hop : (r.op == opField w) = true := List.find?_some (p := fun r : OpcodeRow => r.op == opField w) hr
      exact opcodeMap_faithful r (List.mem_of_find?_eq_some hr) w (beq_iff_eq.1 hop) hacc
    · cases h

end Sys2Proof

/-! Proofs. What the context and register invariants give a command, and what each check, read and arithmetic function
answers when it answers at all. -/

namespace Sys2Proof.Machine

section
variable {s u : State} {i : Instr}

/-! ### What the invariants give a command -/

/-- The leading term of an admissible modulus is above the sum of the others (R29, R251). -/
theorem modulus_bounds {m nk k1 k2 k3 : Nat} (h : admissibleField m nk k1 k2 k3 = true) :
    2 ^ m ≤ modulus m nk k1 k2 k3 ∧ modulus m nk k1 k2 k3 < 2 ^ (m + 1) := by
  have double : ∀ {a b : Nat}, a < b → 2 * 2 ^ a ≤ 2 ^ b := fun {a b} hab => by
    rw [← Nat.pow_succ']; exact Nat.pow_le_pow_right (by decide) hab
  simp only [admissibleField, Bool.and_eq_true] at h
  obtain ⟨-, h⟩ := h
  rw [modulus, Nat.pow_succ]
  refine ⟨by rw [Nat.add_assoc, Nat.add_assoc]; exact Nat.le_add_right _ _, ?_⟩
  split at h
  · obtain ⟨h0, h1⟩ := of_decide_eq_true h
    have := double h0
    have := double h1
    simp only [show nk ≠ 3 by omega, if_false]
    omega
  · split at h
    · next hnk =>
      obtain ⟨h1, h2, h3, h0⟩ := of_decide_eq_true h
      have := double h1
      have := double h2
      have := double h3
      have := double h0
      simp only [hnk, if_true]
      omega
    · cases h

theorem degree_bounds {m nk k1 k2 k3 : Nat} (h : admissibleField m nk k1 k2 k3 = true) : 2 ≤ m ∧ m ≤ 511 := by
  simp only [admissibleField, Bool.and_eq_true] at h
  exact of_decide_eq_true h.1

/-- An active field context is one `red` works for, of degree at most 511 (R29). -/
theorem State.ContextInv.fieldSound (h : s.ContextInv) (hfv : s.fv = true) : s.fieldCtx.Sound := by
  obtain ⟨hadm, -⟩ := h.1 hfv
  obtain ⟨hle, hlt⟩ := modulus_bounds hadm
  refine ⟨(degree_bounds hadm).1, ?_⟩
  have hup := blen_le_iff.2 hlt
  have hlo : ¬ blen s.fieldCtx.f ≤ s.fldM.toNat := fun hb => Nat.not_lt.2 hle (blen_le_iff.1 hb)
  show blen s.fieldCtx.f = s.fldM.toNat + 1
  have : blen s.fieldCtx.f ≤ s.fldM.toNat + 1 := hup
  omega

theorem State.ContextInv.degree_le (h : s.ContextInv) (hfv : s.fv = true) : s.fldM.toNat ≤ 511 :=
  (degree_bounds (h.1 hfv).1).2

/-- An active curve context is sound (R31). -/
theorem State.ContextInv.curveSound (h : s.ContextInv) (hcv : s.cv = true) : s.curveCtx.Sound := by
  obtain ⟨hfv, ha, hb, hne⟩ := h.2.2.1 hcv
  exact ⟨h.fieldSound hfv, ha, hb, fun h0 => hne (BitVec.eq_of_toNat_eq (h0.trans BitVec.toNat_zero.symm))⟩

/-- Contexts and registers are within their bounds: what the values of a command rest on. -/
structure State.Bounded (s : State) : Prop where
  context : s.ContextInv
  registers : s.RegisterInv

/-- The value fits the words of the active field (R23). -/
def State.FitsField (s : State) (v : FVal) : Prop := v.toNat < 2 ^ (32 * s.fieldWords)

theorem fieldWords_ge (s : State) : s.fldM.toNat ≤ 32 * s.fieldWords := by
  unfold State.fieldWords wordCount; omega

theorem fitsField_of_lt {v : FVal} (h : v.toNat < 2 ^ s.fldM.toNat) : s.FitsField v :=
  h.trans_le (Nat.pow_le_pow_right (by decide) (fieldWords_ge s))

theorem ofNat_toNat_le (n : Nat) : (BitVec.ofNat 512 n).toNat ≤ n := by
  rw [BitVec.toNat_ofNat]; exact Nat.mod_le _ _

/-- A reduced value fits the field (R129). -/
theorem fitsField_ofNat {n : Nat} (h : n < 2 ^ s.fieldCtx.m) : s.FitsField (BitVec.ofNat 512 n) :=
  fitsField_of_lt ((ofNat_toNat_le n).trans_lt h)

theorem toReg_reduced {K : FieldCtx} {P : Point} (h : P.Reduced K) : P.toReg.Reduced K.m :=
  ⟨(ofNat_toNat_le _).trans_lt h.1, (ofNat_toNat_le _).trans_lt h.2⟩

theorem signedPoint_reduced {K : FieldCtx} {P : PointReg} (neg : Bool) (h : P.Reduced K.m) :
    (signedPoint neg P).Reduced K.m := by
  cases neg with
  | false => exact h
  | true => exact toReg_reduced (pneg_reduced h)

/-- The data buffer's first `n` words are a value of `32n` bits (R130). -/
theorem dbufValue_lt (d : Vector Word 16) : ∀ n, dbufValue d n < 2 ^ (32 * n)
  | 0 => by simp [dbufValue]
  | n + 1 => by
    have hlo := dbufValue_lt d n
    have hw := (d.toList.getD n 0).isLt
    rw [dbufValue, Nat.shiftLeft_eq, show 32 * (n + 1) = 32 + 32 * n by omega, Nat.pow_add]
    calc dbufValue d n + (d.toList.getD n 0).toNat * 2 ^ (32 * n)
        < 2 ^ (32 * n) + (d.toList.getD n 0).toNat * 2 ^ (32 * n) := Nat.add_lt_add_right hlo _
      _ = ((d.toList.getD n 0).toNat + 1) * 2 ^ (32 * n) :=
        (Nat.add_comm _ _).trans (Nat.succ_mul _ _).symm
      _ ≤ 2 ^ 32 * 2 ^ (32 * n) := Nat.mul_le_mul_right _ hw

section
variable (hb : s.Bounded)
include hb

theorem State.Bounded.fieldReg {k : FReg} (h : s.fval[k] = true) : s.FitsField s.f[k] := hb.registers.1 k h

theorem State.Bounded.pointReg {k : PReg} (h : s.pval[k] = true) : s.p[k].Reduced s.fldM.toNat := hb.registers.2.1 k h

theorem State.Bounded.point {k : PReg} (h : s.pval[k] = true) : s.p[k].val.Reduced s.curveCtx.fld := hb.pointReg h

theorem State.Bounded.tableReg {neg : Bool} {idx : Fin 64} (htv : s.tv = true)
    (h : idx.val < 2 ^ (s.tw.toNat - 2)) : (s.tableReg neg idx).Reduced s.fldM.toNat := by
  obtain ⟨hpos, hneg⟩ := (hb.registers.2.2 htv).2 idx h
  cases neg with
  | false => exact hpos
  | true => exact hneg

end

/-! ### What a command can do, said once -/

/-- The answer of a command's work satisfies `Q`, or is a fault other than `IllegalCommand`. -/
def Yields {α : Type} (Q : α → Prop) : Except FaultCode α → Prop
  | .ok a => Q a
  | .error c => c ≠ .illegalCommand

section
variable {α β : Type} {Q : α → Prop} {Q' : β → Prop} {x : Except FaultCode α} {k : α → Except FaultCode β}

theorem Yields.bind (hx : Yields Q x) (hk : ∀ a, Q a → Yields Q' (k a)) : Yields Q' (x >>= k) := by
  cases x with
  | ok a => exact hk a hx
  | error c => exact hx

theorem Yields.mono {R : α → Prop} (hx : Yields Q x) (h : ∀ a, Q a → R a) : Yields R x := by
  cases x with
  | ok a => exact h a hx
  | error c => exact hx

theorem yields_of (hok : ∀ a, x = .ok a → Q a) (herr : x ≠ .error .illegalCommand) : Yields Q x := by
  cases x with
  | ok a => exact hok a rfl
  | error c => exact fun h => herr (h ▸ rfl)

/-- A computation whose value is only named, not described, raises no `IllegalCommand`. -/
theorem Yields.self (hx : Yields (fun _ => True) x) : Yields (fun a => x = .ok a) x := by
  cases x with
  | ok a => rfl
  | error c => exact hx

end

theorem needField_yields : Yields (fun _ => s.fv = true) s.needField :=
  yields_of (fun _ h => needField_eq_ok.1 h) (fun h => by cases (needField_eq_error.1 h).2)

theorem needCurve_yields : Yields (fun _ => s.fv = true ∧ s.cv = true) s.needCurve :=
  yields_of (fun _ h => needCurve_eq_ok.1 h) fun h => by
    rcases needCurve_eq_error.1 h with ⟨-, ⟨⟩⟩ | ⟨-, -, ⟨⟩⟩

theorem needTable_yields : Yields (fun _ => s.tv = true) s.needTable :=
  yields_of (fun _ h => needTable_eq_ok.1 h) (fun h => by cases (needTable_eq_error.1 h).2)

theorem needRange_yields {p : Prop} [Decidable p] : Yields (fun _ => p) (needRange (decide p)) :=
  yields_of (fun _ h => of_decide_eq_true (needRange_eq_ok.1 h)) (fun h => by cases (needRange_eq_error.1 h).2)

theorem readF_yields {k : FReg} : Yields (fun v => s.fval[k] = true ∧ v = s.f[k]) (s.readF k) :=
  yields_of (fun _ h => readF_eq_ok.1 h) (fun h => by cases (readF_eq_error.1 h).2)

theorem readP_yields {k : PReg} : Yields (fun v => s.pval[k] = true ∧ v = s.p[k]) (s.readP k) :=
  yields_of (fun _ h => readP_eq_ok.1 h) (fun h => by cases (readP_eq_error.1 h).2)

theorem fieldSource_yields {ra : FReg} :
    Yields (fun v => s.fv = true ∧ s.fval[ra] = true ∧ v = s.f[ra]) (s.fieldSource ra) :=
  needField_yields.bind fun _ hfv => readF_yields.mono fun _ h => ⟨hfv, h⟩

theorem fieldSources_yields {ra rb : FReg} :
    Yields (fun v => s.fv = true ∧ (s.fval[ra] = true ∧ s.fval[rb] = true) ∧ v = (s.f[ra], s.f[rb]))
      (s.fieldSources ra rb) :=
  needField_yields.bind fun _ hfv => readF_yields.bind fun _ ⟨ha, ea⟩ => readF_yields.bind fun _ ⟨hb, eb⟩ =>
    show Yields _ (.ok _) from ⟨hfv, ⟨ha, hb⟩, by rw [ea, eb]⟩

theorem pointSource_yields {ra : PReg} :
    Yields (fun v => (s.fv = true ∧ s.cv = true) ∧ s.pval[ra] = true ∧ v = s.p[ra]) (s.pointSource ra) :=
  needCurve_yields.bind fun _ hc => readP_yields.mono fun _ h => ⟨hc, h⟩

theorem pointSources_yields {ra rb : PReg} :
    Yields (fun v => (s.fv = true ∧ s.cv = true) ∧ (s.pval[ra] = true ∧ s.pval[rb] = true) ∧
        v = (s.p[ra], s.p[rb]))
      (s.pointSources ra rb) :=
  needCurve_yields.bind fun _ hc => readP_yields.bind fun _ ⟨ha, ea⟩ => readP_yields.bind fun _ ⟨hb, eb⟩ =>
    show Yields _ (.ok _) from ⟨hc, ⟨ha, hb⟩, by rw [ea, eb]⟩

theorem curveFieldSource_yields {ra : FReg} :
    Yields (fun v => (s.fv = true ∧ s.cv = true) ∧ s.fval[ra] = true ∧ v = s.f[ra]) (s.curveFieldSource ra) :=
  needCurve_yields.bind fun _ hc => readF_yields.mono fun _ h => ⟨hc, h⟩

theorem curveFieldSources_yields {ra rb : FReg} :
    Yields (fun v => (s.fv = true ∧ s.cv = true) ∧ (s.fval[ra] = true ∧ s.fval[rb] = true) ∧
        v = (s.f[ra], s.f[rb]))
      (s.curveFieldSources ra rb) :=
  needCurve_yields.bind fun _ hc => readF_yields.bind fun _ ⟨ha, ea⟩ => readF_yields.bind fun _ ⟨hb, eb⟩ =>
    show Yields _ (.ok _) from ⟨hc, ⟨ha, hb⟩, by rw [ea, eb]⟩

theorem scalarSources_yields {ra : PReg} {rb : FReg} :
    Yields (fun v => (s.fv = true ∧ s.cv = true) ∧ (s.pval[ra] = true ∧ s.fval[rb] = true) ∧
        v = (s.p[ra], s.f[rb]))
      (s.scalarSources ra rb) :=
  needCurve_yields.bind fun _ hc => readP_yields.bind fun _ ⟨ha, ea⟩ => readF_yields.bind fun _ ⟨hb, eb⟩ =>
    show Yields _ (.ok _) from ⟨hc, ⟨ha, hb⟩, by rw [ea, eb]⟩

section
variable {K : FieldCtx} {C : CurveCtx} {P Q : Point}

theorem finv_yields {a : Nat} : Yields (fun r => finv K a = .ok r) (finv K a) :=
  yields_of (fun _ h => h) (fun h => by cases finv_error h)

theorem fsolve_yields {a : Nat} : Yields (fun z => fsolve K a = .ok z) (fsolve K a) :=
  yields_of (fun _ h => h) fun h => by rcases fsolve_error h with ⟨-, ⟨⟩⟩ | ⟨-, ⟨⟩⟩

theorem yields_ok {α : Type} (a : α) : Yields (fun _ => True) (.ok a) := trivial

theorem padd_yields : Yields (fun R => padd C P Q = .ok R) (padd C P Q) := by
  refine Yields.self ?_
  rcases padd_cases (C := C) (P := P) (Q := Q) with
    ⟨-, e⟩ | ⟨-, -, e⟩ | ⟨-, -, -, e⟩ | ⟨-, -, -, -, e⟩ | ⟨-, -, -, -, e⟩ <;> rw [e]
  · exact yields_ok _
  · exact yields_ok _
  · exact finv_yields.bind fun _ _ => yields_ok _
  · exact yields_ok _
  · exact finv_yields.bind fun _ _ => yields_ok _

theorem ptwp_yields : Yields (fun R => ptwp C P Q = .ok R) (ptwp C P Q) :=
  Yields.self (padd_yields.bind fun _ _ => padd_yields.mono fun _ _ => trivial)

theorem ptp2_yields (e : Nat) : Yields (fun R => ptp2 C P e = .ok R) (ptp2 C P e) := by
  induction e generalizing P with
  | zero => rfl
  | succ e ih => exact Yields.self (padd_yields.bind fun _ _ => ih.mono fun _ _ => trivial)

theorem pcompress_yields : Yields (fun c => pcompress C P = .ok c) (pcompress C P) := by
  refine Yields.self ?_
  unfold pcompress
  split
  · exact yields_ok _
  · exact finv_yields.bind fun _ _ => yields_ok _

theorem pexpand_yields {c : Nat} : Yields (fun R => pexpand C c = .ok R) (pexpand C c) := by
  refine Yields.self ?_
  unfold pexpand
  split
  · exact yields_ok _
  · exact finv_yields.bind fun _ _ => fsolve_yields.bind fun _ _ => yields_ok _

theorem oddMultiples_yields (D : Point) : ∀ (n : Nat) (A : Point), Yields (fun _ => True) (oddMultiples C D n A)
  | 0, _ => yields_ok _
  | n + 1, _ => padd_yields.bind fun _ _ => (oddMultiples_yields D n _).bind fun _ _ => yields_ok _

theorem precompute_yields {w : Nat} : Yields (fun T => precompute C P w = .ok T) (precompute C P w) := by
  have hpos : Yields (fun _ => True) (precomputePos C P w) := by
    unfold precomputePos
    split
    · exact yields_ok _
    · exact padd_yields.bind fun _ _ => (oddMultiples_yields _ _ _).bind fun _ _ => yields_ok _
  exact Yields.self (hpos.bind fun _ _ => yields_ok _)

theorem topDigit_yields {T N : List Point} {w : Nat} {e : Word} : Yields (fun _ => True) (topDigit C T N w e) := by
  unfold topDigit
  simp only
  split
  · exact padd_yields.bind fun _ _ => yields_ok _
  · exact yields_ok _

theorem scanDigits_yields {T N : List Point} : ∀ (es : List Word) (A : Point),
    Yields (fun _ => True) (scanDigits C T N es A)
  | [], _ => yields_ok _
  | _ :: es, _ => Yields.bind (Q := fun _ => True)
      (ptwp_yields.bind fun _ _ => (ptp2_yields _).mono fun _ _ => trivial) fun _ _ => scanDigits_yields es _

theorem scan_yields {T N : List Point} {w : Nat} (es : List Word) : Yields (fun _ => True) (scan C T N w es) := by
  match es with
  | [] => exact scanDigits_yields _ _
  | [_] => exact scanDigits_yields _ _
  | _ :: _ :: _ => exact topDigit_yields.bind fun _ _ => (ptp2_yields _).bind fun _ _ => scanDigits_yields _ _

theorem mulpos_yields {k : Nat} : Yields (fun r => mulpos C P k = .ok r) (mulpos C P k) :=
  Yields.self (precompute_yields.bind fun _ _ => (scan_yields _).bind fun _ _ => yields_ok _)

end

end
end Sys2Proof.Machine

/-! Proofs. What a command can do, said once of all 43: the kind of write it makes, and the bounds of what it writes. -/

namespace Sys2Proof.Machine

section
variable {s t u : State} {i : Instr}

/-- The states the work of a command can leave, before it is counted: one case per kind of write, with what the
invariants later ask of the written value. -/
inductive Completes (s : State) (i : Instr) : State → Prop
  | nothing (hi : i = .nop) : Completes s i s
  | fieldReg {rd : FReg} {v : FVal} (hd : i.destF = some rd) (hfv : s.fv = true)
      (hv : i.wellFormed = true → s.Bounded → s.FitsField v) : Completes s i (s.writeF rd v)
  | pointReg {rd : PReg} {v : PointReg} (hd : i.destP = some rd) (hc : s.fv = true ∧ s.cv = true)
      (hv : s.Bounded → v.Reduced s.fldM.toNat) : Completes s i (s.writeP rd v)
  | result {v : Word} (hi : i.writesRes = true) : Completes s i (s.writeRes v)
  | buffer {ra : FReg} (hi : i = .fstore ra) (hfv : s.fv = true) (ha : s.fval[ra] = true) :
      Completes s i (s.writeDbuf (valueWords s.f[ra]))
  | recoding {w : Nat} {k : FVal} (hi : i.writesNaf = true) (hfv : s.fv = true) (hw : 2 ≤ w ∧ w ≤ 16) :
      Completes s i (s.writeNaf w (windowNaf w k.toNat))
  | table {w : Nat} {P : PointReg} {T N : List Point} (hi : i.writesTable = true) (hc : s.fv = true ∧ s.cv = true)
      (hw : 2 ≤ w ∧ w ≤ 8) (hP : s.Bounded → P.Reduced s.fldM.toNat)
      (htab : precompute s.curveCtx P.val w = .ok (T, N)) : Completes s i (s.writeTable w P T N)
  | scan {rd : PReg} {P : PointReg} {k : FVal} {r : ScanResult} (hd : i.destP = some rd) (hn : i.writesNaf = true)
      (ht : i.writesTable = true) (hc : s.fv = true ∧ s.cv = true) (hP : s.Bounded → P.Reduced s.fldM.toNat)
      (hr : mulpos s.curveCtx P.val k.toNat = .ok r) : Completes s i (s.writeScan rd P r)
  | field (hi : i = .setfield)
      (hadm : admissibleField s.cfgM.toNat s.cfgNk.toNat s.cfgK1.toNat s.cfgK2.toNat s.cfgK3.toNat = true) :
      Completes s i (s.writeField s.cfgM s.cfgNk s.cfgK1 (keptExponent s.cfgNk s.cfgK2) (keptExponent s.cfgNk s.cfgK3))
  | curve {ra rb : FReg} (hi : i = .setcurve ra rb) (hfv : s.fv = true) (hb : red s.fieldCtx s.f[rb].toNat ≠ 0) :
      Completes s i (s.writeCurve (BitVec.ofNat 512 (red s.fieldCtx s.f[ra].toNat))
        (BitVec.ofNat 512 (red s.fieldCtx s.f[rb].toNat)))

/-- The command is its own work, whose answer `Completes` describes, and the common end of every command. -/
def Works (i : Instr) (s : State) : Prop := ∃ r : Attempt, exec i s = finish i s r ∧ Yields (Completes s i) r

/-! #### The system family -/

theorem nop_works : Works .nop s := ⟨.ok s, rfl, Completes.nothing rfl⟩

theorem setfield_works : Works .setfield s := by
  refine ⟨_, rfl, ?_⟩
  split
  · next h => exact .field rfl h
  · nofun

theorem setcurve_works (ra rb : FReg) : Works (.setcurve ra rb) s := by
  refine ⟨_, rfl, fieldSources_yields.bind ?_⟩
  rintro _ ⟨hfv, -, rfl⟩
  simp only
  split
  · nofun
  · next hb => exact .curve rfl hfv hb

/-! #### Data movement -/

theorem immediate_fits {imm : Nat} (himm : immInRange imm = true) (hK : s.fieldCtx.Sound) :
    s.FitsField (BitVec.ofNat 512 imm) := by
  have hm : 1 ≤ s.fieldWords := by
    have : 2 ≤ s.fldM.toNat := hK.1
    unfold State.fieldWords wordCount; omega
  have himm : imm < 2 ^ 12 := of_decide_eq_true himm
  exact (ofNat_toNat_le imm).trans_lt (himm.trans_le (Nat.pow_le_pow_right (by decide) (by omega)))

theorem fload_works (rd : FReg) : Works (.fload rd) s :=
  ⟨_, rfl, needField_yields.bind fun _ hfv =>
    .fieldReg rfl hfv fun _ _ => (ofNat_toNat_le _).trans_lt (dbufValue_lt _ _)⟩

theorem fstore_works (ra : FReg) : Works (.fstore ra) s := by
  refine ⟨_, rfl, fieldSource_yields.bind ?_⟩
  rintro _ ⟨hfv, ha, rfl⟩
  exact .buffer rfl hfv ha

theorem fldi_works (rd : FReg) (imm : Nat) : Works (.fldi rd imm) s :=
  ⟨_, rfl, needField_yields.bind fun _ hfv =>
    .fieldReg rfl hfv fun himm hb => immediate_fits himm (hb.context.fieldSound hfv)⟩

/-! #### The field family: the value each command writes fits the field -/

/-- A command that writes a function of one field source. -/
theorem unary_works {rd ra : FReg} {g : FVal → FVal} (hd : i.destF = some rd)
    (hexec : exec i s = finish i s (do let a ← s.fieldSource ra; return s.writeF rd (g a)))
    (hg : s.fv = true → s.fval[ra] = true → s.Bounded → s.FitsField (g s.f[ra])) : Works i s := by
  refine ⟨_, hexec, fieldSource_yields.bind ?_⟩
  rintro _ ⟨hfv, ha, rfl⟩
  exact .fieldReg hd hfv fun _ => hg hfv ha

/-- A command that writes a function of two field sources. -/
theorem binary_works {rd ra rb : FReg} {g : FVal → FVal → FVal} (hd : i.destF = some rd)
    (hexec : exec i s = finish i s (do let (a, b) ← s.fieldSources ra rb; return s.writeF rd (g a b)))
    (hg : s.fv = true → s.fval[ra] = true → s.fval[rb] = true → s.Bounded → s.FitsField (g s.f[ra] s.f[rb])) :
    Works i s := by
  refine ⟨_, hexec, fieldSources_yields.bind ?_⟩
  rintro _ ⟨hfv, ⟨ha, hb⟩, rfl⟩
  exact .fieldReg hd hfv fun _ => hg hfv ha hb

theorem fmov_works (rd ra : FReg) : Works (.fmov rd ra) s :=
  unary_works (g := id) rfl rfl fun _ ha hb => hb.fieldReg ha

theorem fadd_works (rd ra rb : FReg) : Works (.fadd rd ra rb) s :=
  binary_works (g := (· ^^^ ·)) rfl rfl fun _ ha hb h => by
    unfold State.FitsField
    rw [BitVec.toNat_xor]
    exact Nat.xor_lt_two_pow (h.fieldReg ha) (h.fieldReg hb)

theorem fmul_works (rd ra rb : FReg) : Works (.fmul rd ra rb) s :=
  binary_works (g := fun a b => BitVec.ofNat 512 (fmul s.fieldCtx a.toNat b.toNat)) rfl rfl fun hfv _ _ h =>
    fitsField_ofNat (fmul_lt (h.context.fieldSound hfv) _ _)

theorem fsqr_works (rd ra : FReg) : Works (.fsqr rd ra) s :=
  unary_works (g := fun a => BitVec.ofNat 512 (fsqr s.fieldCtx a.toNat)) rfl rfl fun hfv _ h =>
    fitsField_ofNat (fsqr_lt (h.context.fieldSound hfv) _)

theorem fred_works (rd ra : FReg) : Works (.fred rd ra) s :=
  unary_works (g := fun a => BitVec.ofNat 512 (red s.fieldCtx a.toNat)) rfl rfl fun hfv _ h =>
    fitsField_ofNat (red_lt (h.context.fieldSound hfv) _)

theorem finv_works (rd ra : FReg) : Works (.finv rd ra) s :=
  ⟨_, rfl, fieldSource_yields.bind fun _ ⟨hfv, _, _⟩ => finv_yields.bind fun _ hr =>
    .fieldReg rfl hfv fun _ h => fitsField_ofNat (finv_lt (h.context.fieldSound hfv) hr)⟩

theorem fsolve_works (rd ra : FReg) : Works (.fsolve rd ra) s :=
  ⟨_, rfl, fieldSource_yields.bind fun _ ⟨hfv, _, _⟩ => fsolve_yields.bind fun _ hz =>
    .fieldReg rfl hfv fun _ h => fitsField_ofNat (fsolve_lt (h.context.fieldSound hfv) hz)⟩

theorem fsetb_works (rd ra : FReg) (imm : Nat) : Works (.fsetb rd ra imm) s := by
  refine ⟨_, rfl, fieldSource_yields.bind ?_⟩
  rintro _ ⟨hfv, ha, rfl⟩
  refine needRange_yields.bind fun _ himm => .fieldReg rfl hfv fun _ h => ?_
  have hbit : 2 ^ imm < 2 ^ (32 * s.fieldWords) := Nat.pow_lt_pow_right (by decide) himm
  unfold State.FitsField
  rw [BitVec.toNat_or]
  exact Nat.or_lt_two_pow (h.fieldReg ha) ((ofNat_toNat_le _).trans_lt hbit)

theorem fclrb_works (rd ra : FReg) (imm : Nat) : Works (.fclrb rd ra imm) s :=
  unary_works (g := fun a => a &&& ~~~(BitVec.ofNat 512 (2 ^ imm))) rfl rfl fun _ ha h => by
    unfold State.FitsField
    rw [BitVec.toNat_and]
    exact Nat.and_le_left.trans_lt (h.fieldReg ha)

theorem fshr_works (rd ra : FReg) (imm : Nat) : Works (.fshr rd ra imm) s :=
  unary_works (g := fun a => a >>> imm) rfl rfl fun _ ha h => by
    unfold State.FitsField
    rw [BitVec.toNat_ushiftRight, Nat.shiftRight_eq_div_pow]
    exact (Nat.div_le_self _ _).trans_lt (h.fieldReg ha)

/-! #### The commands that write `RES` -/

/-- A command that answers in `RES`, whatever its sources. -/
theorem result_works {α : Type} {Q : α → Prop} {x : Except FaultCode α} {g : α → Word} (hi : i.writesRes = true)
    (hexec : exec i s = finish i s (do let a ← x; return s.writeRes (g a))) (hx : Yields Q x) : Works i s :=
  ⟨_, hexec, hx.bind fun _ _ => .result hi⟩

theorem ftrace_works (ra : FReg) : Works (.ftrace ra) s := result_works rfl rfl fieldSource_yields
theorem ftstb_works (ra : FReg) (imm : Nat) : Works (.ftstb ra imm) s := result_works rfl rfl fieldSource_yields
theorem fblen_works (ra : FReg) : Works (.fblen ra) s := result_works rfl rfl fieldSource_yields
theorem feq_works (ra rb : FReg) : Works (.feq ra rb) s := result_works rfl rfl fieldSources_yields
theorem fisz_works (ra : FReg) : Works (.fisz ra) s := result_works rfl rfl fieldSource_yields
theorem fless_works (ra rb : FReg) : Works (.fless ra rb) s := result_works rfl rfl fieldSources_yields
theorem peq_works (ra rb : PReg) : Works (.peq ra rb) s := result_works rfl rfl pointSources_yields
theorem pisid_works (ra : PReg) : Works (.pisid ra) s := result_works rfl rfl pointSource_yields
theorem pchk_works (ra : PReg) : Works (.pchk ra) s := result_works rfl rfl pointSource_yields
theorem wsize_works (ra : FReg) : Works (.wsize ra) s := result_works rfl rfl fieldSource_yields
theorem wsizei_works (imm : Nat) : Works (.wsizei imm) s := ⟨.ok _, rfl, Completes.result rfl⟩

/-! #### The point family -/

theorem pset_works (rd : PReg) (ra rb : FReg) : Works (.pset rd ra rb) s :=
  ⟨_, rfl, curveFieldSources_yields.bind fun _ ⟨hc, _, _⟩ => .pointReg rfl hc fun h =>
    have hK := h.context.fieldSound hc.1
    toReg_reduced (K := s.fieldCtx) ⟨red_lt hK _, red_lt hK _⟩⟩

theorem pgetx_works (rd : FReg) (ra : PReg) : Works (.pgetx rd ra) s := by
  refine ⟨_, rfl, pointSource_yields.bind ?_⟩
  rintro _ ⟨hc, ha, rfl⟩
  exact .fieldReg rfl hc.1 fun _ h => fitsField_of_lt (h.pointReg ha).1

theorem pgety_works (rd : FReg) (ra : PReg) : Works (.pgety rd ra) s := by
  refine ⟨_, rfl, pointSource_yields.bind ?_⟩
  rintro _ ⟨hc, ha, rfl⟩
  exact .fieldReg rfl hc.1 fun _ h => fitsField_of_lt (h.pointReg ha).2

theorem pmov_works (rd ra : PReg) : Works (.pmov rd ra) s := by
  refine ⟨_, rfl, pointSource_yields.bind ?_⟩
  rintro _ ⟨hc, ha, rfl⟩
  exact .pointReg rfl hc fun h => h.pointReg ha

theorem padd_works (rd ra rb : PReg) : Works (.padd rd ra rb) s := by
  refine ⟨_, rfl, pointSources_yields.bind ?_⟩
  rintro _ ⟨hc, ⟨ha, hb⟩, rfl⟩
  exact padd_yields.bind fun _ hR => .pointReg rfl hc fun h =>
    toReg_reduced (padd_reduced (h.context.curveSound hc.2) (h.point ha) (h.point hb) hR)

theorem pdbl_works (rd ra : PReg) : Works (.pdbl rd ra) s := by
  refine ⟨_, rfl, pointSource_yields.bind ?_⟩
  rintro _ ⟨hc, ha, rfl⟩
  exact padd_yields.bind fun _ hR => .pointReg rfl hc fun h =>
    toReg_reduced (padd_reduced (h.context.curveSound hc.2) (h.point ha) (h.point ha) hR)

theorem pneg_works (rd ra : PReg) : Works (.pneg rd ra) s := by
  refine ⟨_, rfl, pointSource_yields.bind ?_⟩
  rintro _ ⟨hc, ha, rfl⟩
  exact .pointReg rfl hc fun h => signedPoint_reduced (K := s.fieldCtx) true (h.pointReg ha)

theorem pcmp_works (rd : FReg) (ra : PReg) : Works (.pcmp rd ra) s := by
  refine ⟨_, rfl, pointSource_yields.bind ?_⟩
  rintro _ ⟨hc, ha, rfl⟩
  exact pcompress_yields.bind fun _ hr => .fieldReg rfl hc.1 fun _ h =>
    fitsField_ofNat (pcompress_lt (h.context.curveSound hc.2) (h.point ha) hr)

theorem pexp_works (rd : PReg) (ra : FReg) : Works (.pexp rd ra) s :=
  ⟨_, rfl, curveFieldSource_yields.bind fun _ ⟨hc, _, _⟩ => pexpand_yields.bind fun _ hR =>
    .pointReg rfl hc fun h => toReg_reduced (pexpand_reduced (h.context.curveSound hc.2) hR)⟩

theorem ptwp_works (rd ra rb : PReg) : Works (.ptwp rd ra rb) s := by
  refine ⟨_, rfl, pointSources_yields.bind ?_⟩
  rintro _ ⟨hc, ⟨ha, hb⟩, rfl⟩
  exact ptwp_yields.bind fun _ hR => .pointReg rfl hc fun h =>
    toReg_reduced (ptwp_reduced (h.context.curveSound hc.2) (h.point ha) (h.point hb) hR)

theorem ptp2_works (rd ra : PReg) (imm : Nat) : Works (.ptp2 rd ra imm) s := by
  refine ⟨_, rfl, pointSource_yields.bind ?_⟩
  rintro _ ⟨hc, ha, rfl⟩
  exact (ptp2_yields imm).bind fun _ hR => .pointReg rfl hc fun h =>
    toReg_reduced (ptp2_reduced (h.context.curveSound hc.2) (h.point ha) hR)

theorem tblrd_works (rd : PReg) (neg : Bool) (idx : Fin 64) : Works (.tblrd rd neg idx) s :=
  ⟨_, rfl, needCurve_yields.bind fun _ hc => needTable_yields.bind fun _ htv => needRange_yields.bind fun _ hidx =>
    .pointReg rfl hc fun h => h.tableReg htv hidx⟩

/-! #### Recoding, table and scan -/

theorem wnaf_works (ra : FReg) (imm : Nat) : Works (.wnaf ra imm) s :=
  ⟨_, rfl, fieldSource_yields.bind fun _ ⟨hfv, _, _⟩ => needRange_yields.bind fun _ hw =>
    .recoding rfl hfv hw⟩

theorem precomp_works (ra : PReg) (imm : Nat) : Works (.precomp ra imm) s := by
  refine ⟨_, rfl, pointSource_yields.bind ?_⟩
  rintro _ ⟨hc, ha, rfl⟩
  exact needRange_yields.bind fun _ hw => precompute_yields.bind fun _ htab =>
    .table rfl hc hw (fun h => h.pointReg ha) htab

theorem mulpos_works (rd ra : PReg) (rb : FReg) : Works (.mulpos rd ra rb) s := by
  refine ⟨_, rfl, scalarSources_yields.bind ?_⟩
  rintro _ ⟨hc, ⟨ha, -⟩, rfl⟩
  exact mulpos_yields.bind fun _ hr => .scan rfl rfl rfl hc (fun h => h.pointReg ha) hr

theorem pmul_works (rd ra : PReg) (rb : FReg) (neg : Bool) : Works (.pmul rd ra rb neg) s := by
  refine ⟨_, rfl, scalarSources_yields.bind ?_⟩
  rintro _ ⟨hc, ⟨ha, -⟩, rfl⟩
  simp only
  split
  · exact .pointReg rfl hc fun _ => toReg_reduced (K := s.fieldCtx) identity_reduced
  · exact mulpos_yields.bind fun _ hr =>
      .scan rfl rfl rfl hc (fun h => signedPoint_reduced (K := s.fieldCtx) neg (h.pointReg ha)) hr

/-- Every command is its work and the common end. -/
theorem works (i : Instr) (s : State) : Works i s :=
  match i with
  | .nop => nop_works
  | .setfield => setfield_works
  | .setcurve ra rb => setcurve_works ra rb
  | .fload rd => fload_works rd
  | .fstore ra => fstore_works ra
  | .fldi rd imm => fldi_works rd imm
  | .fmov rd ra => fmov_works rd ra
  | .fadd rd ra rb => fadd_works rd ra rb
  | .fmul rd ra rb => fmul_works rd ra rb
  | .fsqr rd ra => fsqr_works rd ra
  | .fred rd ra => fred_works rd ra
  | .finv rd ra => finv_works rd ra
  | .ftrace ra => ftrace_works ra
  | .fsolve rd ra => fsolve_works rd ra
  | .ftstb ra imm => ftstb_works ra imm
  | .fsetb rd ra imm => fsetb_works rd ra imm
  | .fclrb rd ra imm => fclrb_works rd ra imm
  | .fblen ra => fblen_works ra
  | .fshr rd ra imm => fshr_works rd ra imm
  | .feq ra rb => feq_works ra rb
  | .fisz ra => fisz_works ra
  | .fless ra rb => fless_works ra rb
  | .pset rd ra rb => pset_works rd ra rb
  | .pgetx rd ra => pgetx_works rd ra
  | .pgety rd ra => pgety_works rd ra
  | .pmov rd ra => pmov_works rd ra
  | .padd rd ra rb => padd_works rd ra rb
  | .pdbl rd ra => pdbl_works rd ra
  | .pneg rd ra => pneg_works rd ra
  | .pcmp rd ra => pcmp_works rd ra
  | .pexp rd ra => pexp_works rd ra
  | .peq ra rb => peq_works ra rb
  | .pisid ra => pisid_works ra
  | .pchk ra => pchk_works ra
  | .pmul rd ra rb neg => pmul_works rd ra rb neg
  | .wsize ra => wsize_works ra
  | .wsizei imm => wsizei_works imm
  | .wnaf ra imm => wnaf_works ra imm
  | .precomp ra imm => precomp_works ra imm
  | .tblrd rd neg idx => tblrd_works rd neg idx
  | .mulpos rd ra rb => mulpos_works rd ra rb
  | .ptwp rd ra rb => ptwp_works rd ra rb
  | .ptp2 rd ra imm => ptp2_works rd ra imm

/-- A command completes and is counted, or takes a fault that is not `IllegalCommand`. -/
theorem exec_cases (i : Instr) (s : State) :
    (∃ u, Completes s i u ∧ exec i s = .next u.countCommand) ∨
    (∃ c, c ≠ FaultCode.illegalCommand ∧ exec i s = .next (s.takeFault c (encode i))) := by
  obtain ⟨r, hexec, hr⟩ := works i s
  rw [hexec]
  cases r with
  | ok u => exact .inl ⟨u, hr, rfl⟩
  | error c => exact .inr ⟨c, hr, rfl⟩

end
end Sys2Proof.Machine

/-! Proofs. What a step can do, said once, and the five invariants it keeps. -/

namespace Sys2Proof.Machine

section
variable {s t u : State} {i : Instr}

/-! ### What a step can do, said once -/

/-- The states one access of the host can leave, the commands it issues taken apart. -/
inductive Accessed (a : HostAccess) (s : State) : State → Prop
  | nothing : Accessed a s s
  | replied (v : Word) : Accessed a s (s.reply v)
  | drawn : Accessed a s s.replyFree
  | staged (m nk k1 k2 k3 : Word) (d : Vector Word 16) :
      Accessed a s { s with cfgM := m, cfgNk := nk, cfgK1 := k1, cfgK2 := k2, cfgK3 := k3, dbuf := d }
  | reset (ha : a.resets = true) : Accessed a s s.resetEngine
  | faulted {c : FaultCode} {w : Word} (hf : s.fault = false)
      (hfit : c = .illegalCommand ↔ ∀ i, decode w ≠ .ok i) : Accessed a s (s.takeFault c w)
  | completed {i : Instr} {u : State} (hf : s.fault = false) (hi : i.wellFormed = true) (hu : Completes s i u) :
      Accessed a s u.countCommand

/-- `CTRL` has one offset (R37). -/
theorem windowReg_eq_ctrl {off : Nat} (h : windowReg off = some .ctrl) : off = ctrlOffset := by
  unfold windowReg at h
  split at h
  · cases h
  · split at h
    · cases h
    · obtain ⟨l₁, l₂, hl, -⟩ := List.lookup_eq_some_iff.1 h
      have hmem : (off, WindowReg.ctrl) ∈ fixedOffsets := hl ▸ by simp
      simpa [fixedOffsets, ctrlOffset] using hmem

/-- A word written to `CMD` (R38, R302, R310, R312). -/
theorem issueCommand_accessed {a : HostAccess} {w : Word} (h : issueCommand w s = .next t) : Accessed a s t := by
  rcases issueCommand_next_iff.1 h with ⟨-, rfl⟩ | ⟨hf, i, hd, hexec⟩ | ⟨hf, ⟨e, he⟩, rfl⟩
  · exact .nothing
  · obtain ⟨henc, hwf⟩ := encode_of_decode hd
    rcases exec_cases i s with ⟨u, hu, hx⟩ | ⟨c, hc, hx⟩
    · cases hexec.symm.trans hx
      exact .completed hf hwf hu
    · cases hexec.symm.trans hx
      exact .faulted hf ⟨fun h => absurd h hc, fun h => absurd (henc ▸ hd) (h i)⟩
  · exact .faulted hf ⟨fun _ i hi => by simp [he] at hi, fun _ => rfl⟩

/-- A write to a register of the window (R62): to `CMD`, to `CTRL`, to a staging register or `DBUF`, or ignored. -/
theorem writeReg_accessed {a : HostAccess} {r : WindowReg} {v : Word} (h : writeReg r v s = .next t)
    (ha : r = .ctrl → v.getLsbD 0 = true → a.resets = true) : Accessed a s t := by
  cases r with
  | cmd => exact issueCommand_accessed h
  | ctrl =>
    simp only [writeReg] at h
    split at h <;> cases h
    · next hv => exact .reset (ha rfl hv)
    · exact .nothing
  | cfgM => cases h; exact .staged v _ _ _ _ _
  | cfgNk => cases h; exact .staged _ v _ _ _ _
  | cfgK1 => cases h; exact .staged _ _ v _ _ _
  | cfgK2 => cases h; exact .staged _ _ _ v _ _
  | cfgK3 => cases h; exact .staged _ _ _ _ v _
  | dbuf j => cases h; exact .staged _ _ _ _ _ (s.dbuf.set j v)
  | _ => cases h; exact .nothing

theorem hostAccess_accessed {a : HostAccess} (h : hostAccess a s = .next t) : Accessed a s t := by
  cases a with
  | read off size =>
    obtain ⟨-, -, ⟨r, -, rfl⟩ | ⟨-, rfl⟩⟩ := hostRead_next_iff.1 h
    · exact .replied _
    · exact .drawn
  | write off size v =>
    obtain ⟨-, hadm, ⟨r, hr, hw⟩ | ⟨-, rfl⟩⟩ := hostWrite_next_iff.1 h
    · refine writeReg_accessed hw ?_
      rintro rfl hv
      simp only [admitted, Bool.and_eq_true] at hadm
      simp only [HostAccess.resets, Bool.and_eq_true, beq_iff_eq]
      exact ⟨⟨windowReg_eq_ctrl hr, beq_iff_eq.1 hadm.1⟩, hv⟩
    · exact .nothing
  | resetInput => cases h; exact .reset rfl

/-- A step is idle, or performs the oldest pending access on the state without it. -/
theorem step_cases (h : step s = .next t) :
    t = s ∨ ∃ a rest, s.pending = a :: rest ∧ Accessed a { s with pending := rest } t := by
  rcases step_next_iff.1 h with ⟨-, rfl⟩ | ⟨a, rest, hp, ha⟩
  · exact .inl rfl
  · exact .inr ⟨a, rest, hp, hostAccess_accessed ha⟩

/-- What makes a property of the engine an invariant of every step: it does not speak of the host's side of the bus, the
staging registers and `DBUF`; reset meets it; a fault that fits its word and the work of a command keep it. -/
structure StepInvariant (Inv : State → Prop) : Prop where
  bus : ∀ s pending replies draws, Inv s → Inv { s with pending := pending, replies := replies, draws := draws }
  staging : ∀ s m nk k1 k2 k3 d, Inv s →
    Inv { s with cfgM := m, cfgNk := nk, cfgK1 := k1, cfgK2 := k2, cfgK3 := k3, dbuf := d }
  reset : ∀ s : State, Inv s.resetEngine
  fault : ∀ s c w, (c = .illegalCommand ↔ ∀ i, decode w ≠ .ok i) → Inv s → Inv (s.takeFault c w)
  command : ∀ s i u, i.wellFormed = true → Inv s → Completes s i u → Inv u.countCommand

theorem StepInvariant.accessed {Inv : State → Prop} (hI : StepInvariant Inv) {a : HostAccess} (hs : Inv s)
    (h : Accessed a s t) : Inv t := by
  cases h with
  | nothing => exact hs
  | replied v => exact hI.bus s _ _ _ hs
  | drawn => exact hI.bus s _ _ _ hs
  | staged m nk k1 k2 k3 d => exact hI.staging s m nk k1 k2 k3 d hs
  | reset _ => exact hI.reset s
  | faulted _ hfit => exact hI.fault s _ _ hfit hs
  | completed _ hi hu => exact hI.command s _ _ hi hs hu

theorem StepInvariant.step {Inv : State → Prop} (hI : StepInvariant Inv) (hs : Inv s) (h : step s = .next t) :
    Inv t := by
  rcases step_cases h with rfl | ⟨a, rest, -, h⟩
  · exact hs
  · exact hI.accessed (hI.bus s rest s.replies s.draws hs) h

/-! ### Registers and buffers after a write -/

theorem toNat_ofNat_of_lt {w n : Nat} (h : n < 2 ^ w) : (BitVec.ofNat w n).toNat = n := by
  rw [BitVec.toNat_ofNat, Nat.mod_eq_of_lt h]

theorem set_getElem_fin {α : Type} {n : Nat} (v : Vector α n) (j k : Fin n) (x : α) :
    (v.set j x)[k] = if j = k then x else v[k] := by
  simp [Vector.getElem_set, Fin.ext_iff]

theorem replicate_getElem_fin {α : Type} {n : Nat} (a : α) (k : Fin n) : (Vector.replicate n a)[k] = a := by simp

/-- The written entries of a buffer are the list's. -/
theorem overwrite_map_getElem {α β : Type} {n : Nat} (v : Vector β n) (g : α → β) {T : List α} {j : Fin n}
    (hj : j.val < T.length) : (overwrite v (T.map g))[j] = g T[j.val] := by
  simp [hj]

/-- The written part of a buffer is the list. -/
theorem overwrite_take {α : Type} {n : Nat} (v : Vector α n) {es : List α} (h : es.length ≤ n) :
    (overwrite v es).toList.take es.length = es := by
  refine List.ext_getElem (by simpa using h) fun j _ hj => ?_
  simp [hj]

/-! ### The context invariant -/

theorem admissibleField_kept {m nk k1 k2 k3 : Word}
    (h : admissibleField m.toNat nk.toNat k1.toNat k2.toNat k3.toNat = true) :
    admissibleField m.toNat nk.toNat k1.toNat (keptExponent nk k2).toNat (keptExponent nk k3).toNat = true := by
  unfold keptExponent
  split
  · next hnk =>
    subst hnk
    exact h
  · exact h

/-- The field that `SETFIELD` installs keeps the promises of `FV` (R251). -/
theorem writeField_contextInv
    (h : admissibleField s.cfgM.toNat s.cfgNk.toNat s.cfgK1.toNat s.cfgK2.toNat s.cfgK3.toNat = true) :
    (s.writeField s.cfgM s.cfgNk s.cfgK1 (keptExponent s.cfgNk s.cfgK2) (keptExponent s.cfgNk s.cfgK3)).ContextInv :=
  ⟨fun _ => ⟨admissibleField_kept h, fun hnk => ⟨if_pos hnk, if_pos hnk⟩⟩, nofun, nofun,
    fun k hk => by simp at hk, fun k hk => by simp at hk, nofun, nofun⟩

/-- A reduced value keeps its number in 512 bits. -/
theorem toNat_ofNat_of_reduced (h : s.ContextInv) (hfv : s.fv = true) {n : Nat} (hn : n < 2 ^ s.fldM.toNat) :
    (BitVec.ofNat 512 n).toNat = n := by
  have hm : s.fldM.toNat ≤ 512 := (h.degree_le hfv).trans (by decide)
  exact toNat_ofNat_of_lt (hn.trans_le (pow_le_pow_right₀ (by decide) hm))

/-- The curve that `SETCURVE` installs keeps the promises of `CV` (R252). -/
theorem writeCurve_contextInv (h : s.ContextInv) (hfv : s.fv = true) {a b : Nat} (hb : red s.fieldCtx b ≠ 0) :
    (s.writeCurve (BitVec.ofNat 512 (red s.fieldCtx a)) (BitVec.ofNat 512 (red s.fieldCtx b))).ContextInv := by
  have hK := h.fieldSound hfv
  have hlt := red_lt hK b
  have ⟨h1, h2, _, h4, _, h6, _⟩ := h
  refine ⟨h1, h2, fun _ => ⟨hfv, (ofNat_toNat_le _).trans_lt (red_lt hK a), (ofNat_toNat_le _).trans_lt hlt, ?_⟩,
    h4, fun k hk => by simp at hk, h6, nofun⟩
  intro h0
  refine hb ?_
  rw [← toNat_ofNat_of_reduced h hfv hlt]
  exact (congrArg BitVec.toNat h0).trans BitVec.toNat_zero

theorem Completes.contextInv (hu : Completes s i u) (h : s.ContextInv) : u.ContextInv := by
  have ⟨h1, h2, h3, h4, h5, h6, h7⟩ := h
  cases hu with
  | nothing => exact h
  | fieldReg _ hfv _ => exact ⟨h1, h2, h3, fun _ _ => hfv, h5, h6, h7⟩
  | pointReg _ hc _ => exact ⟨h1, h2, h3, h4, fun _ _ => hc.2, h6, h7⟩
  | result => exact h
  | buffer => exact h
  | recoding _ hfv _ => exact ⟨h1, h2, h3, h4, h5, fun _ => hfv, h7⟩
  | table _ hc _ _ _ => exact ⟨h1, h2, h3, h4, h5, h6, fun _ => hc.2⟩
  | scan _ _ _ hc _ _ => exact ⟨h1, h2, h3, h4, fun _ _ => hc.2, fun _ => hc.1, fun _ => hc.2⟩
  | field _ hadm => exact writeField_contextInv hadm
  | curve _ hfv hb => exact writeCurve_contextInv h hfv hb

theorem resetEngine_contextInv (s : State) : s.resetEngine.ContextInv :=
  ⟨nofun, fun _ => ⟨rfl, rfl, rfl, rfl, rfl⟩, nofun, fun k hk => by simp at hk, fun k hk => by simp at hk, nofun,
    nofun⟩

theorem contextInv_stepInvariant : StepInvariant State.ContextInv where
  bus _ _ _ _ h := h
  staging _ _ _ _ _ _ _ h := h
  reset := resetEngine_contextInv
  fault _ _ _ _ h := h
  command _ _ _ _ h hu := hu.contextInv h

/-- Settles O55: `Completes.contextInv` over every kind of step. -/
theorem stepKeepsContextInvariant : Obligations.StepKeepsContextInvariant :=
  fun _ _ hs h => contextInv_stepInvariant.step hs h

/-! ### The register invariant -/

/-- What holds of the valid entries still does when an entry of which it holds is written and made valid. -/
theorem forall_valid_set {α : Type} {n : Nat} {Q : α → Prop} {valid : Vector Bool n} {v : Vector α n} {j : Fin n}
    {x : α} (h : ∀ k : Fin n, valid[k] = true → Q v[k]) (hx : Q x) (k : Fin n)
    (hk : (valid.set j true)[k] = true) : Q (v.set j x)[k] := by
  rw [set_getElem_fin] at hk ⊢
  by_cases hjk : j = k
  · rwa [if_pos hjk]
  · rw [if_neg hjk] at hk ⊢
    exact h k hk

/-- The width of a table is read back from `TW` (R34). -/
theorem toNat_tableWidth {w : Nat} (hw : w ≤ 8) : (BitVec.ofNat 8 w).toNat = w :=
  toNat_ofNat_of_lt (by omega)

/-- The entries of a table written from a reduced point are reduced (R34). -/
theorem writeTable_reduced {C : CurveCtx} (hC : C.Sound) {w : Nat} {P : PointReg} {T N : List Point} (hw : w ≤ 8)
    (hP : P.Reduced C.fld.m) (htab : precompute C P.val w = .ok (T, N)) (j : Fin 64)
    (hj : j.val < 2 ^ ((BitVec.ofNat 8 w).toNat - 2)) :
    (s.writeTable w P T N).tpos[j].Reduced C.fld.m ∧ (s.writeTable w P T N).tneg[j].Reduced C.fld.m := by
  rw [toNat_tableWidth hw] at hj
  obtain ⟨hT, hN⟩ := precompute_length htab
  obtain ⟨hTr, hNr⟩ := precompute_reduced hC (P := P.val) hP htab
  rw [State.writeTable_tpos, State.writeTable_tneg, overwrite_map_getElem _ _ (hT.symm ▸ hj),
    overwrite_map_getElem _ _ (hN.symm ▸ hj)]
  exact ⟨toReg_reduced (hTr _ (List.getElem_mem _)), toReg_reduced (hNr _ (List.getElem_mem _))⟩

theorem Completes.registerInv (hu : Completes s i u) (hi : i.wellFormed = true) (h : s.Bounded) :
    u.RegisterInv := by
  have ⟨hf, hp, ht⟩ := h.registers
  cases hu with
  | nothing => exact h.registers
  | fieldReg _ _ hv => exact ⟨forall_valid_set (Q := s.FitsField) hf (hv hi h), hp, ht⟩
  | pointReg _ _ hv => exact ⟨hf, forall_valid_set (Q := PointReg.Reduced s.fldM.toNat) hp (hv h), ht⟩
  | result => exact h.registers
  | buffer => exact h.registers
  | recoding => exact h.registers
  | table _ hc hw hP htab =>
    exact ⟨hf, hp, fun _ => ⟨hP h, writeTable_reduced (h.context.curveSound hc.2) hw.2 (hP h) htab⟩⟩
  | @scan _ P _ _ _ _ _ hc hP hr =>
    have hC := h.context.curveSound hc.2
    have hPr : P.val.Reduced s.curveCtx.fld := hP h
    obtain ⟨hw, -, htab, -⟩ := mulpos_eq_ok.1 hr
    have hw8 := hw ▸ (scalarWidth_bounds _).2
    have hR := toReg_reduced (mulpos_reduced hC hPr hr)
    exact ⟨hf, forall_valid_set (Q := PointReg.Reduced s.fldM.toNat) hp hR,
      fun _ => ⟨hP h, writeTable_reduced hC hw8 (hP h) htab⟩⟩
  | field => exact ⟨fun k hk => by simp at hk, fun k hk => by simp at hk, nofun⟩
  | curve => exact ⟨hf, fun k hk => by simp at hk, nofun⟩

theorem resetEngine_registerInv (s : State) : s.resetEngine.RegisterInv :=
  ⟨fun k hk => by simp at hk, fun k hk => by simp at hk, nofun⟩

theorem bounded_stepInvariant : StepInvariant State.Bounded where
  bus _ _ _ _ h := ⟨h.context, h.registers⟩
  staging _ _ _ _ _ _ _ h := ⟨h.context, h.registers⟩
  reset s := ⟨resetEngine_contextInv s, resetEngine_registerInv s⟩
  fault _ _ _ _ h := ⟨h.context, h.registers⟩
  command _ _ _ hi h hu := ⟨hu.contextInv h.context, hu.registerInv hi h⟩

/-- Settles O56: `Completes.registerInv` over every kind of step. -/
theorem stepKeepsRegisterInvariant : Obligations.StepKeepsRegisterInvariant :=
  fun _ _ hc hr h => (bounded_stepInvariant.step ⟨hc, hr⟩ h).registers

/-! ### The NAF buffer -/

/-- A recoding written to the NAF buffer is read back whole (R33, R217). -/
theorem writeNaf_nafInv {w : Nat} (hw : 2 ≤ w ∧ w ≤ 16) (k : FVal) :
    (s.writeNaf w (windowNaf w k.toNat)).NafInv := by
  have hlen := windowNaf_length_le hw.1 (blen_toNat_le k)
  have hL : (BitVec.ofNat 16 (windowNaf w k.toNat).length).toNat = (windowNaf w k.toNat).length :=
    toNat_ofNat_of_lt (by omega)
  have hW : (BitVec.ofNat 8 w).toNat = w := toNat_ofNat_of_lt (by omega)
  intro _
  simp only [State.writeNaf_nafLen, State.writeNaf_nafW, State.writeNaf_naf, hL, hW]
  exact ⟨hw.1, hw.2, hlen, k.toNat, blen_le_iff.1 (blen_toNat_le k), overwrite_take _ hlen⟩

theorem Completes.nafInv (hu : Completes s i u) (h : s.NafInv) : u.NafInv := by
  cases hu with
  | recoding _ _ hw => exact writeNaf_nafInv hw _
  | @scan rd P k r _ _ _ _ _ hr =>
    obtain ⟨hw, hn, -, -⟩ := mulpos_eq_ok.1 hr
    have hbounds := scalarWidth_bounds k.toNat
    have hnaf := writeNaf_nafInv (s := s) (w := r.width) (by omega) k
    rw [← hn] at hnaf
    exact hnaf
  | field => nofun
  | nothing => exact h
  | fieldReg => exact h
  | pointReg => exact h
  | result => exact h
  | buffer => exact h
  | table => exact h
  | curve => exact h

theorem nafInv_stepInvariant : StepInvariant State.NafInv where
  bus _ _ _ _ h := h
  staging _ _ _ _ _ _ _ h := h
  reset _ := nofun
  fault _ _ _ _ h := h
  command _ _ _ _ h hu := hu.nafInv h

/-- Settles O57: `Completes.nafInv` over every kind of step. -/
theorem stepKeepsNafInvariant : Obligations.StepKeepsNafInvariant :=
  fun _ _ hs h => nafInv_stepInvariant.step hs h

/-! ### The table -/

theorem some_toReg_getElem {T : List Point} {j : Nat} (h : j < T.length) :
    some (Point.toReg T[j]) = T[j]?.map Point.toReg := by simp [h]

/-- A table that was written is the one computed from its point and width (R34, R219). -/
theorem writeTable_tableInv {w : Nat} {P : PointReg} {T N : List Point} (hw : 2 ≤ w ∧ w ≤ 8)
    (htab : precompute s.curveCtx P.val w = .ok (T, N)) : (s.writeTable w P T N).TableInv := by
  obtain ⟨hT, hN⟩ := precompute_length htab
  intro _
  simp only [State.writeTable_tw, toNat_tableWidth hw.2]
  refine ⟨hw.1, hw.2, T, N, htab, hT, hN, fun j hj => ?_⟩
  rw [State.writeTable_tpos, State.writeTable_tneg, overwrite_map_getElem _ _ (hT.symm ▸ hj),
    overwrite_map_getElem _ _ (hN.symm ▸ hj)]
  exact ⟨some_toReg_getElem _, some_toReg_getElem _⟩

theorem Completes.tableInv (hu : Completes s i u) (h : s.TableInv) : u.TableInv := by
  cases hu with
  | table _ _ hw _ htab => exact writeTable_tableInv hw htab
  | @scan rd P k r _ _ _ _ _ hr =>
    obtain ⟨hw, -, htab, -⟩ := mulpos_eq_ok.1 hr
    have htable : (s.writeTable r.width P r.tpos r.tneg).TableInv :=
      writeTable_tableInv (hw ▸ scalarWidth_bounds k.toNat) htab
    exact htable
  | field => nofun
  | curve => nofun
  | nothing => exact h
  | fieldReg => exact h
  | pointReg => exact h
  | result => exact h
  | buffer => exact h
  | recoding => exact h

theorem tableInv_stepInvariant : StepInvariant State.TableInv where
  bus _ _ _ _ h := h
  staging _ _ _ _ _ _ _ h := h
  reset _ := nofun
  fault _ _ _ _ h := h
  command _ _ _ _ h hu := hu.tableInv h

/-- Settles O58: `Completes.tableInv` over every kind of step. -/
theorem stepKeepsTableInvariant : Obligations.StepKeepsTableInvariant :=
  fun _ _ hs h => tableInv_stepInvariant.step hs h

/-! ### The fault record -/

/-- A fault that fits its word is a well-formed record (R36, R302). -/
theorem takeFault_faultInv {c : FaultCode} {w : Word} (hfit : c = .illegalCommand ↔ ∀ i, decode w ≠ .ok i) :
    (s.takeFault c w).FaultInv :=
  ⟨nofun, fun _ => ⟨⟨c, rfl⟩, code_inj.trans hfit⟩⟩

/-- The work of a command leaves the fault record and the counter alone (R41). -/
theorem Completes.record_eq (hu : Completes s i u) :
    u.fault = s.fault ∧ u.errcode = s.errcode ∧ u.faultcmd = s.faultcmd ∧ u.cseq = s.cseq := by
  cases hu <;> simp [State.writeScan]

theorem Completes.faultInv (hu : Completes s i u) (h : s.FaultInv) : u.FaultInv := by
  obtain ⟨h1, h2, h3, -⟩ := hu.record_eq
  unfold State.FaultInv
  rw [h1, h2, h3]
  exact h

theorem faultInv_stepInvariant : StepInvariant State.FaultInv where
  bus _ _ _ _ h := h
  staging _ _ _ _ _ _ _ h := h
  reset _ := ⟨fun _ => ⟨rfl, rfl⟩, nofun⟩
  fault _ _ _ hfit _ := takeFault_faultInv hfit
  command _ _ _ _ h hu := hu.faultInv h

/-- Settles O59: `Completes.faultInv` over every kind of step. -/
theorem stepKeepsFaultInvariant : Obligations.StepKeepsFaultInvariant :=
  fun _ _ hs h => faultInv_stepInvariant.step hs h

/-- Settles O54: reset meets each of the five invariants. -/
theorem resetMeetsInvariants : Obligations.ResetMeetsInvariants :=
  ⟨contextInv_stepInvariant.reset State.reset, (bounded_stepInvariant.reset State.reset).registers,
    nafInv_stepInvariant.reset State.reset, tableInv_stepInvariant.reset State.reset,
    faultInv_stepInvariant.reset State.reset⟩

end
end Sys2Proof.Machine

/-! Proofs. Two states that differ in what is not state: every write, read, command and access keeps them alike. -/

namespace Sys2Proof.Machine

section
variable {s t : State}

/-! ### States that look the same: each write keeps them so -/

theorem overwrite_getElem_of_lt {α : Type} {n : Nat} (v : Vector α n) {xs : List α} {j : Fin n}
    (h : j.val < xs.length) : (overwrite v xs)[j] = xs[j.val] := by
  simp [h]

/-- Vectors that agree on the valid entries still do when the same value is written to both and made valid. -/
theorem agree_valid_set {α : Type} {n : Nat} {valid : Vector Bool n} {v w : Vector α n} {j : Fin n} {x : α}
    (h : ∀ k : Fin n, valid[k] = true → v[k] = w[k]) (k : Fin n) (hk : (valid.set j true)[k] = true) :
    (v.set j x)[k] = (w.set j x)[k] := by
  rw [set_getElem_fin] at hk ⊢
  rw [set_getElem_fin]
  by_cases hjk : j = k
  · rw [if_pos hjk, if_pos hjk]
  · rw [if_neg hjk] at hk
    rw [if_neg hjk, if_neg hjk, h k hk]

theorem gated_congr {b c : Bool} {v w : Word} (hbc : b = c) (hvw : b = true → v = w) : gated b v = gated c w := by
  subst hbc
  cases b with
  | true => exact hvw rfl
  | false => rfl

namespace State.SameObservable

theorem refl (s : State) : s.SameObservable s where
  fval := rfl
  f _ _ := rfl
  pval := rfl
  p _ _ := rfl
  res := rfl
  fv := rfl
  fld _ := ⟨rfl, rfl, rfl, rfl, rfl⟩
  cfg := ⟨rfl, rfl, rfl, rfl, rfl⟩
  cv := rfl
  coeffs _ := ⟨rfl, rfl⟩
  dbuf := rfl
  nv := rfl
  nafHead _ := ⟨rfl, rfl⟩
  naf _ _ _ := rfl
  tv := rfl
  tableHead _ := rfl
  table _ _ _ := ⟨rfl, rfl⟩
  record := ⟨rfl, rfl, rfl⟩
  cseq := rfl
  bus := ⟨rfl, rfl, rfl⟩

variable (h : s.SameObservable t)
include h

theorem writeF (rd : FReg) (v : FVal) : (s.writeF rd v).SameObservable (t.writeF rd v) :=
  { h with
    fval := congrArg (·.set rd true) h.fval
    f := agree_valid_set h.f }

theorem writeP (rd : PReg) (v : PointReg) : (s.writeP rd v).SameObservable (t.writeP rd v) :=
  { h with
    pval := congrArg (·.set rd true) h.pval
    p := agree_valid_set h.p }

theorem writeRes (v : Word) : (s.writeRes v).SameObservable (t.writeRes v) := { h with res := rfl }

theorem writeDbuf (v : Vector Word 16) : (s.writeDbuf v).SameObservable (t.writeDbuf v) := { h with dbuf := rfl }

/-- The entries past the written ones, which may differ, are outside the valid part (R33). -/
theorem writeNaf (w : Nat) (es : List Word) : (s.writeNaf w es).SameObservable (t.writeNaf w es) :=
  { h with
    nv := rfl
    nafHead := fun _ => ⟨rfl, rfl⟩
    naf := fun _ j hj => by
      have hlen : j.val < es.length := by
        rw [State.writeNaf_nafLen, BitVec.toNat_ofNat] at hj
        exact hj.trans_le (Nat.mod_le _ _)
      simp only [State.writeNaf_naf, overwrite_getElem_of_lt _ hlen] }

/-- The entries past the written ones, which may differ, are outside the valid part (R34). -/
theorem writeTable {C : CurveCtx} {w : Nat} {P : PointReg} {T N : List Point} (hw : w ≤ 8)
    (htab : precompute C P.val w = .ok (T, N)) : (s.writeTable w P T N).SameObservable (t.writeTable w P T N) :=
  { h with
    tv := rfl
    tableHead := fun _ => rfl
    table := fun _ j hj => by
      obtain ⟨hT, hN⟩ := precompute_length htab
      rw [State.writeTable_tw, toNat_tableWidth hw] at hj
      simp only [State.writeTable_tpos, State.writeTable_tneg, overwrite_map_getElem _ _ (hT.symm ▸ hj),
        overwrite_map_getElem _ _ (hN.symm ▸ hj), and_self] }

theorem writeScan {C : CurveCtx} {P : PointReg} {k : Nat} {r : ScanResult} (rd : PReg)
    (hr : mulpos C P.val k = .ok r) : (s.writeScan rd P r).SameObservable (t.writeScan rd P r) := by
  obtain ⟨hw, -, htab, -⟩ := mulpos_eq_ok.1 hr
  exact ((h.writeTable (hw ▸ (scalarWidth_bounds k).2) htab).writeNaf r.width r.naf).writeP rd r.point.toReg

theorem writeField (m nk k1 k2 k3 : Word) :
    (s.writeField m nk k1 k2 k3).SameObservable (t.writeField m nk k1 k2 k3) :=
  { h with
    fval := rfl
    f := fun k hk => by simp at hk
    pval := rfl
    p := fun k hk => by simp at hk
    fv := rfl
    fld := fun _ => ⟨rfl, rfl, rfl, rfl, rfl⟩
    cv := rfl
    coeffs := nofun
    nv := rfl
    nafHead := nofun
    naf := nofun
    tv := rfl
    tableHead := nofun
    table := nofun }

theorem writeCurve (a b : FVal) : (s.writeCurve a b).SameObservable (t.writeCurve a b) :=
  { h with
    pval := rfl
    p := fun k hk => by simp at hk
    cv := rfl
    coeffs := fun _ => ⟨rfl, rfl⟩
    tv := rfl
    tableHead := nofun
    table := nofun }

theorem countCommand : s.countCommand.SameObservable t.countCommand := { h with cseq := congrArg (· + 1) h.cseq }

theorem takeFault (c : FaultCode) (w : Word) : (s.takeFault c w).SameObservable (t.takeFault c w) :=
  { h with record := ⟨rfl, rfl, rfl⟩ }

theorem withPending (rest : List HostAccess) :
    State.SameObservable { s with pending := rest } { t with pending := rest } :=
  have ⟨_, hr, hd⟩ := h.bus
  { h with bus := ⟨rfl, hr, hd⟩ }

/-- Reset leaves the same engine, and the host's side, which agrees (R341). -/
theorem resetEngine_eq : s.resetEngine = t.resetEngine := by
  obtain ⟨hp, hr, hd⟩ := h.bus
  simp only [State.resetEngine, hp, hr, hd]

/-! ### What a command reads agrees -/

theorem needField : s.needField = t.needField := by simp only [State.needField, h.fv]

theorem needCurve : s.needCurve = t.needCurve := by simp only [State.needCurve, h.needField, h.cv]

theorem needTable : s.needTable = t.needTable := by simp only [State.needTable, h.tv]

theorem readF (k : FReg) : s.readF k = t.readF k := by
  have hk := h.f k
  unfold State.readF
  rw [← h.fval]
  split
  · next hv => rw [hk hv]
  · rfl

theorem readP (k : PReg) : s.readP k = t.readP k := by
  have hk := h.p k
  unfold State.readP
  rw [← h.pval]
  split
  · next hv => rw [hk hv]
  · rfl

theorem fieldSource (ra : FReg) : s.fieldSource ra = t.fieldSource ra := by
  simp only [State.fieldSource, h.needField, h.readF]

theorem fieldSources (ra rb : FReg) : s.fieldSources ra rb = t.fieldSources ra rb := by
  simp only [State.fieldSources, h.needField, h.readF]

theorem pointSource (ra : PReg) : s.pointSource ra = t.pointSource ra := by
  simp only [State.pointSource, h.needCurve, h.readP]

theorem pointSources (ra rb : PReg) : s.pointSources ra rb = t.pointSources ra rb := by
  simp only [State.pointSources, h.needCurve, h.readP]

theorem curveFieldSource (ra : FReg) : s.curveFieldSource ra = t.curveFieldSource ra := by
  simp only [State.curveFieldSource, h.needCurve, h.readF]

theorem curveFieldSources (ra rb : FReg) : s.curveFieldSources ra rb = t.curveFieldSources ra rb := by
  simp only [State.curveFieldSources, h.needCurve, h.readF]

theorem scalarSources (ra : PReg) (rb : FReg) : s.scalarSources ra rb = t.scalarSources ra rb := by
  simp only [State.scalarSources, h.needCurve, h.readP, h.readF]

theorem fieldCtx (hfv : s.fv = true) : s.fieldCtx = t.fieldCtx := by
  obtain ⟨hm, hnk, h1, h2, h3⟩ := h.fld hfv
  simp only [State.fieldCtx, hm, hnk, h1, h2, h3]

theorem fieldWords (hfv : s.fv = true) : s.fieldWords = t.fieldWords := by
  obtain ⟨hm, -⟩ := h.fld hfv
  simp only [State.fieldWords, hm]

theorem curveCtx (hc : s.fv = true ∧ s.cv = true) : s.curveCtx = t.curveCtx := by
  obtain ⟨ha, hb⟩ := h.coeffs hc.2
  simp only [State.curveCtx, h.fieldCtx hc.1, ha, hb]

end State.SameObservable

/-! ### Commands do not tell them apart -/

/-- Two attempts agree: both answer, with states that look the same, or both raise the same fault. -/
def SameAttempt : Attempt → Attempt → Prop
  | .ok u, .ok v => u.SameObservable v
  | .error c, .error d => c = d
  | _, _ => False

/-- The two states take the same first part, and agree on the rest wherever that answers. -/
theorem sameAttempt_bind {α : Type} {Q : α → Prop} {x y : Except FaultCode α} {k k' : α → Attempt} (hxy : x = y)
    (hx : Yields Q x) (hk : ∀ a, Q a → SameAttempt (k a) (k' a)) : SameAttempt (x >>= k) (y >>= k') := by
  subst hxy
  cases x with
  | ok a => exact hk a hx
  | error c => rfl

/-- The command does the same work in both states. -/
def SameWork (i : Instr) (s t : State) : Prop :=
  ∃ r r' : Attempt, exec i s = finish i s r ∧ exec i t = finish i t r' ∧ SameAttempt r r'

theorem SameWork.outcome {i : Instr} (hw : SameWork i s t) (h : s.SameObservable t) :
    SameOutcome State.SameObservable (exec i s) (exec i t) := by
  obtain ⟨r, r', hs, ht, hr⟩ := hw
  rw [hs, ht]
  cases r with
  | ok u =>
    cases r' with
    | ok v => exact State.SameObservable.countCommand hr
    | error _ => exact hr.elim
  | error c =>
    cases r' with
    | ok _ => exact hr.elim
    | error d =>
      obtain rfl : c = d := hr
      exact h.takeFault c _

section
variable (h : s.SameObservable t)
include h

theorem nop_sameWork : SameWork .nop s t := ⟨.ok s, .ok t, rfl, rfl, h⟩

theorem setfield_sameWork : SameWork .setfield s t := by
  obtain ⟨hm, hnk, h1, h2, h3⟩ := h.cfg
  refine ⟨_, _, rfl, rfl, ?_⟩
  rw [hm, hnk, h1, h2, h3]
  split
  · exact h.writeField _ _ _ _ _
  · rfl

theorem setcurve_sameWork (ra rb : FReg) : SameWork (.setcurve ra rb) s t := by
  refine ⟨_, _, rfl, rfl, sameAttempt_bind (h.fieldSources ra rb) fieldSources_yields fun (a, b) ⟨hfv, _⟩ => ?_⟩
  simp only [h.fieldCtx hfv]
  split
  · rfl
  · exact h.writeCurve _ _

theorem fload_sameWork (rd : FReg) : SameWork (.fload rd) s t :=
  ⟨_, _, rfl, rfl, sameAttempt_bind h.needField needField_yields fun _ hfv => by
    rw [h.dbuf, h.fieldWords hfv]; exact h.writeF rd _⟩

theorem fstore_sameWork (ra : FReg) : SameWork (.fstore ra) s t :=
  ⟨_, _, rfl, rfl, sameAttempt_bind (h.fieldSource ra) fieldSource_yields fun _ _ => h.writeDbuf _⟩

theorem fldi_sameWork (rd : FReg) (imm : Nat) : SameWork (.fldi rd imm) s t :=
  ⟨_, _, rfl, rfl, sameAttempt_bind h.needField needField_yields fun _ _ => h.writeF rd _⟩

/-- A command that writes a function of one field source and of the field context. -/
theorem unary_sameWork {i : Instr} {rd ra : FReg} (g : FieldCtx → FVal → FVal)
    (hexec : ∀ s, exec i s = finish i s (do let a ← s.fieldSource ra; return s.writeF rd (g s.fieldCtx a))) :
    SameWork i s t :=
  ⟨_, _, hexec s, hexec t, sameAttempt_bind (h.fieldSource ra) fieldSource_yields fun a ⟨hfv, _⟩ => by
    rw [h.fieldCtx hfv]; exact h.writeF rd _⟩

/-- A command that writes a function of one field source and of the field context, where it has a value. -/
theorem partial_sameWork {i : Instr} {rd ra : FReg} (g : FieldCtx → Nat → Except FaultCode Nat)
    (hg : ∀ K a, Yields (fun r => g K a = .ok r) (g K a))
    (hexec : ∀ s, exec i s = finish i s (do
      let a ← s.fieldSource ra
      let r ← g s.fieldCtx a.toNat
      return s.writeF rd (BitVec.ofNat 512 r))) : SameWork i s t :=
  ⟨_, _, hexec s, hexec t, sameAttempt_bind (h.fieldSource ra) fieldSource_yields fun a ⟨hfv, _⟩ =>
    sameAttempt_bind (by rw [h.fieldCtx hfv]) (hg _ _) fun _ _ => h.writeF rd _⟩

theorem fadd_sameWork (rd ra rb : FReg) : SameWork (.fadd rd ra rb) s t :=
  ⟨_, _, rfl, rfl, sameAttempt_bind (h.fieldSources ra rb) fieldSources_yields fun (_, _) _ => h.writeF rd _⟩

theorem fmul_sameWork (rd ra rb : FReg) : SameWork (.fmul rd ra rb) s t :=
  ⟨_, _, rfl, rfl, sameAttempt_bind (h.fieldSources ra rb) fieldSources_yields fun (_, _) ⟨hfv, _⟩ => by
    rw [h.fieldCtx hfv]; exact h.writeF rd _⟩

theorem fmov_sameWork (rd ra : FReg) : SameWork (.fmov rd ra) s t := unary_sameWork h (fun _ a => a) fun _ => rfl

theorem fsqr_sameWork (rd ra : FReg) : SameWork (.fsqr rd ra) s t :=
  unary_sameWork h (fun K a => BitVec.ofNat 512 (fsqr K a.toNat)) fun _ => rfl

theorem fred_sameWork (rd ra : FReg) : SameWork (.fred rd ra) s t :=
  unary_sameWork h (fun K a => BitVec.ofNat 512 (red K a.toNat)) fun _ => rfl

theorem finv_sameWork (rd ra : FReg) : SameWork (.finv rd ra) s t :=
  partial_sameWork h finv (fun _ _ => finv_yields) fun _ => rfl

theorem fsolve_sameWork (rd ra : FReg) : SameWork (.fsolve rd ra) s t :=
  partial_sameWork h fsolve (fun _ _ => fsolve_yields) fun _ => rfl

theorem fsetb_sameWork (rd ra : FReg) (imm : Nat) : SameWork (.fsetb rd ra imm) s t :=
  ⟨_, _, rfl, rfl, sameAttempt_bind (h.fieldSource ra) fieldSource_yields fun _ ⟨hfv, _⟩ =>
    sameAttempt_bind (by rw [h.fieldWords hfv]) needRange_yields fun _ _ => h.writeF rd _⟩

theorem fclrb_sameWork (rd ra : FReg) (imm : Nat) : SameWork (.fclrb rd ra imm) s t :=
  unary_sameWork h (fun _ a => a &&& ~~~(BitVec.ofNat 512 (2 ^ imm))) fun _ => rfl

theorem fshr_sameWork (rd ra : FReg) (imm : Nat) : SameWork (.fshr rd ra imm) s t :=
  unary_sameWork h (fun _ a => a >>> imm) fun _ => rfl

/-- A command that answers in `RES` a function of one field source and of the field context. -/
theorem result_sameWork {i : Instr} {ra : FReg} (g : FieldCtx → FVal → Word)
    (hexec : ∀ s, exec i s = finish i s (do let a ← s.fieldSource ra; return s.writeRes (g s.fieldCtx a))) :
    SameWork i s t :=
  ⟨_, _, hexec s, hexec t, sameAttempt_bind (h.fieldSource ra) fieldSource_yields fun a ⟨hfv, _⟩ => by
    rw [h.fieldCtx hfv]; exact h.writeRes _⟩

theorem ftrace_sameWork (ra : FReg) : SameWork (.ftrace ra) s t :=
  result_sameWork h (fun K a => resOfNat (ftrace K a.toNat)) fun _ => rfl

theorem ftstb_sameWork (ra : FReg) (imm : Nat) : SameWork (.ftstb ra imm) s t :=
  result_sameWork h (fun _ a => testBitRes a imm) fun _ => rfl

theorem fblen_sameWork (ra : FReg) : SameWork (.fblen ra) s t :=
  result_sameWork h (fun _ a => resOfNat (blen a.toNat)) fun _ => rfl

theorem fisz_sameWork (ra : FReg) : SameWork (.fisz ra) s t :=
  result_sameWork h (fun _ a => resOfBool (a == 0)) fun _ => rfl

theorem wsize_sameWork (ra : FReg) : SameWork (.wsize ra) s t :=
  result_sameWork h (fun _ a => resOfNat (scalarWidth a.toNat)) fun _ => rfl

theorem feq_sameWork (ra rb : FReg) : SameWork (.feq ra rb) s t :=
  ⟨_, _, rfl, rfl, sameAttempt_bind (h.fieldSources ra rb) fieldSources_yields fun (_, _) _ => h.writeRes _⟩

theorem fless_sameWork (ra rb : FReg) : SameWork (.fless ra rb) s t :=
  ⟨_, _, rfl, rfl, sameAttempt_bind (h.fieldSources ra rb) fieldSources_yields fun (_, _) _ => h.writeRes _⟩

theorem wsizei_sameWork (imm : Nat) : SameWork (.wsizei imm) s t := ⟨.ok _, .ok _, rfl, rfl, h.writeRes _⟩

theorem peq_sameWork (ra rb : PReg) : SameWork (.peq ra rb) s t :=
  ⟨_, _, rfl, rfl, sameAttempt_bind (h.pointSources ra rb) pointSources_yields fun (_, _) _ => h.writeRes _⟩

theorem pisid_sameWork (ra : PReg) : SameWork (.pisid ra) s t :=
  ⟨_, _, rfl, rfl, sameAttempt_bind (h.pointSource ra) pointSource_yields fun _ _ => h.writeRes _⟩

theorem pchk_sameWork (ra : PReg) : SameWork (.pchk ra) s t :=
  ⟨_, _, rfl, rfl, sameAttempt_bind (h.pointSource ra) pointSource_yields fun _ ⟨hc, _⟩ => by
    rw [h.curveCtx hc]; exact h.writeRes _⟩

theorem pset_sameWork (rd : PReg) (ra rb : FReg) : SameWork (.pset rd ra rb) s t :=
  ⟨_, _, rfl, rfl, sameAttempt_bind (h.curveFieldSources ra rb) curveFieldSources_yields fun (_, _) ⟨hc, _⟩ => by
    rw [h.fieldCtx hc.1]; exact h.writeP rd _⟩

theorem pgetx_sameWork (rd : FReg) (ra : PReg) : SameWork (.pgetx rd ra) s t :=
  ⟨_, _, rfl, rfl, sameAttempt_bind (h.pointSource ra) pointSource_yields fun _ _ => h.writeF rd _⟩

theorem pgety_sameWork (rd : FReg) (ra : PReg) : SameWork (.pgety rd ra) s t :=
  ⟨_, _, rfl, rfl, sameAttempt_bind (h.pointSource ra) pointSource_yields fun _ _ => h.writeF rd _⟩

theorem pmov_sameWork (rd ra : PReg) : SameWork (.pmov rd ra) s t :=
  ⟨_, _, rfl, rfl, sameAttempt_bind (h.pointSource ra) pointSource_yields fun _ _ => h.writeP rd _⟩

theorem pneg_sameWork (rd ra : PReg) : SameWork (.pneg rd ra) s t :=
  ⟨_, _, rfl, rfl, sameAttempt_bind (h.pointSource ra) pointSource_yields fun _ _ => h.writeP rd _⟩

/-- A command that writes a point function of one point source, where it has a value. -/
theorem point_sameWork {i : Instr} {rd ra : PReg} (g : CurveCtx → Point → Except FaultCode Point)
    (hg : ∀ C P, Yields (fun R => g C P = .ok R) (g C P))
    (hexec : ∀ s, exec i s = finish i s (do
      let P ← s.pointSource ra
      let R ← g s.curveCtx P.val
      return s.writeP rd R.toReg)) : SameWork i s t :=
  ⟨_, _, hexec s, hexec t, sameAttempt_bind (h.pointSource ra) pointSource_yields fun _ ⟨hc, _⟩ =>
    sameAttempt_bind (by rw [h.curveCtx hc]) (hg _ _) fun _ _ => h.writeP rd _⟩

/-- A command that writes a point function of two point sources, where it has a value. -/
theorem points_sameWork {i : Instr} {rd ra rb : PReg} (g : CurveCtx → Point → Point → Except FaultCode Point)
    (hg : ∀ C P Q, Yields (fun R => g C P Q = .ok R) (g C P Q))
    (hexec : ∀ s, exec i s = finish i s (do
      let (P, Q) ← s.pointSources ra rb
      let R ← g s.curveCtx P.val Q.val
      return s.writeP rd R.toReg)) : SameWork i s t :=
  ⟨_, _, hexec s, hexec t, sameAttempt_bind (h.pointSources ra rb) pointSources_yields fun (_, _) ⟨hc, _⟩ =>
    sameAttempt_bind (by rw [h.curveCtx hc]) (hg _ _ _) fun _ _ => h.writeP rd _⟩

theorem padd_sameWork (rd ra rb : PReg) : SameWork (.padd rd ra rb) s t :=
  points_sameWork h padd (fun _ _ _ => padd_yields) fun _ => rfl

theorem ptwp_sameWork (rd ra rb : PReg) : SameWork (.ptwp rd ra rb) s t :=
  points_sameWork h ptwp (fun _ _ _ => ptwp_yields) fun _ => rfl

theorem pdbl_sameWork (rd ra : PReg) : SameWork (.pdbl rd ra) s t :=
  point_sameWork h pdbl (fun _ _ => padd_yields) fun _ => rfl

theorem ptp2_sameWork (rd ra : PReg) (imm : Nat) : SameWork (.ptp2 rd ra imm) s t :=
  point_sameWork h (fun C P => ptp2 C P imm) (fun _ _ => ptp2_yields imm) fun _ => rfl

theorem pcmp_sameWork (rd : FReg) (ra : PReg) : SameWork (.pcmp rd ra) s t :=
  ⟨_, _, rfl, rfl, sameAttempt_bind (h.pointSource ra) pointSource_yields fun _ ⟨hc, _⟩ =>
    sameAttempt_bind (by rw [h.curveCtx hc]) pcompress_yields fun _ _ => h.writeF rd _⟩

theorem pexp_sameWork (rd : PReg) (ra : FReg) : SameWork (.pexp rd ra) s t :=
  ⟨_, _, rfl, rfl, sameAttempt_bind (h.curveFieldSource ra) curveFieldSource_yields fun _ ⟨hc, _⟩ =>
    sameAttempt_bind (by rw [h.curveCtx hc]) pexpand_yields fun _ _ => h.writeP rd _⟩

theorem wnaf_sameWork (ra : FReg) (imm : Nat) : SameWork (.wnaf ra imm) s t :=
  ⟨_, _, rfl, rfl, sameAttempt_bind (h.fieldSource ra) fieldSource_yields fun _ _ =>
    sameAttempt_bind rfl needRange_yields fun _ _ => h.writeNaf _ _⟩

theorem precomp_sameWork (ra : PReg) (imm : Nat) : SameWork (.precomp ra imm) s t :=
  ⟨_, _, rfl, rfl, sameAttempt_bind (h.pointSource ra) pointSource_yields fun _ ⟨hc, _⟩ =>
    sameAttempt_bind rfl needRange_yields fun _ hw =>
      sameAttempt_bind (by rw [h.curveCtx hc]) precompute_yields fun _ htab => h.writeTable hw.2 htab⟩

/-- `TBLRD` reads an entry of the valid part only (R225). -/
theorem tblrd_sameWork (rd : PReg) (neg : Bool) (idx : Fin 64) : SameWork (.tblrd rd neg idx) s t :=
  ⟨_, _, rfl, rfl, sameAttempt_bind h.needCurve needCurve_yields fun _ _ =>
    sameAttempt_bind h.needTable needTable_yields fun _ htv =>
      sameAttempt_bind (by rw [h.tableHead htv]) needRange_yields fun _ hidx => by
        obtain ⟨hpos, hneg⟩ := h.table htv idx hidx
        have hreg : s.tableReg neg idx = t.tableReg neg idx := by simp only [State.tableReg, hpos, hneg]
        rw [hreg]
        exact h.writeP rd _⟩

theorem mulpos_sameWork (rd ra : PReg) (rb : FReg) : SameWork (.mulpos rd ra rb) s t :=
  ⟨_, _, rfl, rfl, sameAttempt_bind (h.scalarSources ra rb) scalarSources_yields fun (_, _) ⟨hc, _⟩ =>
    sameAttempt_bind (by rw [h.curveCtx hc]) mulpos_yields fun _ hr => h.writeScan rd hr⟩

theorem pmul_sameWork (rd ra : PReg) (rb : FReg) (neg : Bool) : SameWork (.pmul rd ra rb neg) s t := by
  refine ⟨_, _, rfl, rfl,
    sameAttempt_bind (h.scalarSources ra rb) scalarSources_yields fun (P, k) ⟨hc, _⟩ => ?_⟩
  simp only
  split
  · exact h.writeP rd _
  · exact sameAttempt_bind (by rw [h.curveCtx hc]) mulpos_yields fun _ hr => h.writeScan rd hr

theorem sameWork (i : Instr) : SameWork i s t :=
  match i with
  | .nop => nop_sameWork h
  | .setfield => setfield_sameWork h
  | .setcurve ra rb => setcurve_sameWork h ra rb
  | .fload rd => fload_sameWork h rd
  | .fstore ra => fstore_sameWork h ra
  | .fldi rd imm => fldi_sameWork h rd imm
  | .fmov rd ra => fmov_sameWork h rd ra
  | .fadd rd ra rb => fadd_sameWork h rd ra rb
  | .fmul rd ra rb => fmul_sameWork h rd ra rb
  | .fsqr rd ra => fsqr_sameWork h rd ra
  | .fred rd ra => fred_sameWork h rd ra
  | .finv rd ra => finv_sameWork h rd ra
  | .ftrace ra => ftrace_sameWork h ra
  | .fsolve rd ra => fsolve_sameWork h rd ra
  | .ftstb ra imm => ftstb_sameWork h ra imm
  | .fsetb rd ra imm => fsetb_sameWork h rd ra imm
  | .fclrb rd ra imm => fclrb_sameWork h rd ra imm
  | .fblen ra => fblen_sameWork h ra
  | .fshr rd ra imm => fshr_sameWork h rd ra imm
  | .feq ra rb => feq_sameWork h ra rb
  | .fisz ra => fisz_sameWork h ra
  | .fless ra rb => fless_sameWork h ra rb
  | .pset rd ra rb => pset_sameWork h rd ra rb
  | .pgetx rd ra => pgetx_sameWork h rd ra
  | .pgety rd ra => pgety_sameWork h rd ra
  | .pmov rd ra => pmov_sameWork h rd ra
  | .padd rd ra rb => padd_sameWork h rd ra rb
  | .pdbl rd ra => pdbl_sameWork h rd ra
  | .pneg rd ra => pneg_sameWork h rd ra
  | .pcmp rd ra => pcmp_sameWork h rd ra
  | .pexp rd ra => pexp_sameWork h rd ra
  | .peq ra rb => peq_sameWork h ra rb
  | .pisid ra => pisid_sameWork h ra
  | .pchk ra => pchk_sameWork h ra
  | .pmul rd ra rb neg => pmul_sameWork h rd ra rb neg
  | .wsize ra => wsize_sameWork h ra
  | .wsizei imm => wsizei_sameWork h imm
  | .wnaf ra imm => wnaf_sameWork h ra imm
  | .precomp ra imm => precomp_sameWork h ra imm
  | .tblrd rd neg idx => tblrd_sameWork h rd neg idx
  | .mulpos rd ra rb => mulpos_sameWork h rd ra rb
  | .ptwp rd ra rb => ptwp_sameWork h rd ra rb
  | .ptp2 rd ra imm => ptp2_sameWork h rd ra imm

/-! ### The host does not tell them apart -/

/-- An entry of the NAF buffer reads the same: past the valid part it reads 0 (R33). -/
theorem nafEntry_eq (j : Fin 257) : s.nafEntry j = t.nafEntry j := by
  unfold State.nafEntry
  rw [← h.nv]
  cases hnv : s.nv with
  | false => rfl
  | true =>
    obtain ⟨hlen, -⟩ := h.nafHead hnv
    rw [← hlen]
    exact gated_congr rfl fun hj => h.naf hnv j (by simpa using hj)

/-- A read returns the same value: what a cleared valid bit hides reads 0 (R29, R33, R34). -/
theorem readReg_eq (r : WindowReg) : s.readReg r = t.readReg r := by
  obtain ⟨hfault, herr, hcmd⟩ := h.record
  obtain ⟨hcm, hcn, hc1, hc2, hc3⟩ := h.cfg
  cases r with
  | status => simp only [State.readReg, State.status, hfault, herr, h.tv, h.nv, h.cv, h.fv]
  | nafinfo =>
    refine gated_congr h.nv fun hnv => ?_
    obtain ⟨hlen, hw⟩ := h.nafHead hnv
    rw [hlen, hw]
  | tblinfo => exact gated_congr h.tv fun htv => by rw [h.tableHead htv]
  | fldM => exact gated_congr h.fv fun hfv => have ⟨hm, _⟩ := h.fld hfv; hm
  | fldNk => exact gated_congr h.fv fun hfv => have ⟨_, hnk, _⟩ := h.fld hfv; hnk
  | fldK1 => exact gated_congr h.fv fun hfv => have ⟨_, _, h1, _⟩ := h.fld hfv; h1
  | fldK2 => exact gated_congr h.fv fun hfv => have ⟨_, _, _, h2, _⟩ := h.fld hfv; h2
  | fldK3 => exact gated_congr h.fv fun hfv => have ⟨_, _, _, _, h3⟩ := h.fld hfv; h3
  | fldL => exact gated_congr h.fv fun hfv => by rw [h.fieldWords hfv]
  | dbuf j => simp only [State.readReg, h.dbuf]
  | naf j => exact nafEntry_eq h j
  | res => exact h.res
  | faultcmd => exact hcmd
  | cseq => exact h.cseq
  | cfgM => exact hcm
  | cfgNk => exact hcn
  | cfgK1 => exact hc1
  | cfgK2 => exact hc2
  | cfgK3 => exact hc3
  | id => rfl
  | version => rfl
  | param0 => rfl
  | param1 => rfl
  | ctrl => rfl
  | cmd => rfl

theorem issueCommand_same (w : Word) :
    SameOutcome State.SameObservable (issueCommand w s) (issueCommand w t) := by
  obtain ⟨hfault, -, -⟩ := h.record
  unfold issueCommand
  rw [← hfault]
  split
  · exact h
  · split
    · exact (sameWork h _).outcome h
    · exact h.takeFault _ _

theorem writeReg_same (r : WindowReg) (v : Word) :
    SameOutcome State.SameObservable (writeReg r v s) (writeReg r v t) := by
  obtain ⟨hcm, hcn, hc1, hc2, hc3⟩ := h.cfg
  cases r with
  | cmd => exact issueCommand_same h v
  | ctrl =>
    simp only [writeReg, h.resetEngine_eq]
    split
    · exact .refl _
    · exact h
  | cfgM => exact { h with cfg := ⟨rfl, hcn, hc1, hc2, hc3⟩ }
  | cfgNk => exact { h with cfg := ⟨hcm, rfl, hc1, hc2, hc3⟩ }
  | cfgK1 => exact { h with cfg := ⟨hcm, hcn, rfl, hc2, hc3⟩ }
  | cfgK2 => exact { h with cfg := ⟨hcm, hcn, hc1, rfl, hc3⟩ }
  | cfgK3 => exact { h with cfg := ⟨hcm, hcn, hc1, hc2, rfl⟩ }
  | dbuf j => exact { h with dbuf := congrArg (·.set j v) h.dbuf }
  | _ => exact h

theorem reply_same {v w : Word} (hvw : v = w) : (s.reply v).SameObservable (t.reply w) := by
  obtain ⟨hp, hr, hd⟩ := h.bus
  exact { h with bus := ⟨hp, by rw [State.reply_replies, State.reply_replies, hr, hvw], hd⟩ }

/-- The free value drawn is the same: the count of draws is the host's, and agrees (R66). -/
theorem replyFree_same : s.replyFree.SameObservable t.replyFree := by
  obtain ⟨hp, hr, hd⟩ := h.bus
  exact { h with bus := ⟨hp, by rw [State.replyFree_replies, State.replyFree_replies, hr, hd],
    congrArg (· + 1) hd⟩ }

end

theorem onWindow_same {off : Nat} {size : AccessSize} {x y : Host.Outcome State Fault Refusal}
    (hxy : SameOutcome State.SameObservable x y) :
    SameOutcome State.SameObservable (onWindow off size x) (onWindow off size y) := by
  unfold onWindow
  split
  · rfl
  · split
    · exact hxy
    · rfl

theorem hostAccess_same (h : s.SameObservable t) (a : HostAccess) :
    SameOutcome State.SameObservable (hostAccess a s) (hostAccess a t) := by
  cases a with
  | read off size =>
    refine onWindow_same ?_
    split
    · exact reply_same h (readReg_eq h _)
    · exact replyFree_same h
  | write off size v =>
    refine onWindow_same ?_
    split
    · exact writeReg_same h _ v
    · exact h
  | resetInput =>
    show s.resetEngine.SameObservable t.resetEngine
    rw [h.resetEngine_eq]
    exact .refl _

/-- Settles O60: the oldest access is the same in both states, and no access tells them apart. -/
theorem unobservableContentsNeverMatter : Obligations.UnobservableContentsNeverMatter := by
  intro s t h
  obtain ⟨hp, -, -⟩ := h.bus
  unfold step
  rw [← hp]
  split
  · exact h
  · exact hostAccess_same (h.withPending _) _

end
end Sys2Proof.Machine

/-! Proofs. How a command ends and what it changes, the round trip through `DBUF`, and the register window. -/

namespace Sys2Proof.Machine

section
variable {s t u : State} {i : Instr}

/-! ### What a command changes -/

/-- Settles O31: the two ways a command ends (`exec_cases`), and what its work leaves of the record. -/
theorem everyCommandCompletesOrOnlyFaults : Obligations.EveryCommandCompletesOrOnlyFaults := by
  intro i s
  rcases exec_cases i s with ⟨u, hu, hx⟩ | ⟨c, hc, hx⟩
  · obtain ⟨hfault, herr, hcmd, hseq⟩ := hu.record_eq
    exact .inl ⟨u.countCommand, hx, congrArg (· + 1) hseq, hfault, herr, hcmd⟩
  · exact .inr ⟨c, hc, hx⟩

/-- Settles O36: no access but a reset touches the record of a faulted engine. -/
theorem faultRecordIsSticky : Obligations.FaultRecordIsSticky := by
  intro s t hf h
  rcases step_cases h with rfl | ⟨a, rest, hp, ha⟩
  · exact .inl ⟨hf, rfl, rfl, rfl⟩
  · cases ha with
    | nothing => exact .inl ⟨hf, rfl, rfl, rfl⟩
    | replied => exact .inl ⟨hf, rfl, rfl, rfl⟩
    | drawn => exact .inl ⟨hf, rfl, rfl, rfl⟩
    | staged => exact .inl ⟨hf, rfl, rfl, rfl⟩
    | reset hr => exact .inr ⟨a, rest, hp, hr, rfl, rfl, rfl⟩
    | faulted hf' => exact absurd (hf.symm.trans hf') (by decide)
    | completed hf' => exact absurd (hf.symm.trans hf') (by decide)

theorem set_getElem_of_ne {α : Type} {n : Nat} (v : Vector α n) {j k : Fin n} (x : α) (h : j ≠ k) :
    (v.set j x)[k] = v[k] := by
  rw [set_getElem_fin, if_neg h]

/-- Settles O37, kind of write by kind of write: each is made by the commands the clauses except only. -/
theorem commandsChangeOnlyTheirTargets : Obligations.CommandsChangeOnlyTheirTargets := by
  intro i s t h
  rcases exec_cases i s with ⟨u, hu, hx⟩ | ⟨c, -, hx⟩
  · obtain rfl := Host.Outcome.next.inj (hx.symm.trans h)
    cases hu with
    | nothing => simp
    | @fieldReg rd v hd =>
      have hne : ∀ k : FReg, i.destF ≠ some k → rd ≠ k := fun k hk h => hk (h ▸ hd)
      simp +contextual [-Fin.getElem_fin, set_getElem_of_ne, hne]
    | @pointReg rd v hd =>
      have hne : ∀ k : PReg, i.destP ≠ some k → rd ≠ k := fun k hk h => hk (h ▸ hd)
      simp +contextual [-Fin.getElem_fin, set_getElem_of_ne, hne]
    | result hi => simp [hi]
    | buffer hi => simp [hi]
    | recoding hi => simp [hi]
    | table hi => simp [hi]
    | @scan rd _ _ _ hd hn ht =>
      have hne : ∀ k : PReg, i.destP ≠ some k → rd ≠ k := fun k hk h => hk (h ▸ hd)
      simp +contextual [State.writeScan, -Fin.getElem_fin, set_getElem_of_ne, hne, hn, ht]
    | field hi => simp [hi]
    | curve hi => simp [hi]
  · obtain rfl := Host.Outcome.next.inj (hx.symm.trans h)
    simp

/-! ### Storing and loading a register -/

/-- The words of a value, put together again, are the value's low bits (R130, R131). -/
theorem dbufValue_valueWords (v : FVal) : ∀ {n : Nat}, n ≤ 16 →
    dbufValue (valueWords v) n = v.toNat % 2 ^ (32 * n)
  | 0, _ => by simp [dbufValue, Nat.mod_one]
  | n + 1, h => by
    have hword : (valueWords v).toList.getD n 0 = v.extractLsb' (32 * n) 32 := by
      rw [← valueWords_getElem v n (by omega)]
      simp [show n < 16 by omega]
    rw [dbufValue, dbufValue_valueWords v (by omega), hword, BitVec.extractLsb'_toNat, Nat.shiftRight_eq_div_pow,
      Nat.shiftLeft_eq, show 32 * (n + 1) = 32 * n + 32 by omega, Nat.pow_add, Nat.mod_mul, Nat.mul_comm (2 ^ (32 * n))]

/-- `FSTORE` that counts has found its source, and leaves its words in `DBUF` (R131). -/
theorem fstore_next {ra : FReg} (h : exec (.fstore ra) s = .next t) (hseq : t.cseq = s.cseq + 1) :
    s.fv = true ∧ s.fval[ra] = true ∧ t = (s.writeDbuf (valueWords s.f[ra])).countCommand := by
  change finish _ s (_ >>= _) = _ at h
  rcases finish_next_iff.1 h with ⟨u, hu, rfl⟩ | ⟨c, -, rfl⟩
  · obtain ⟨a, ha, hu⟩ := except_bind_eq_ok.1 hu
    obtain ⟨hfv, hval, rfl⟩ := fieldSource_eq_ok.1 ha
    cases hu
    exact ⟨hfv, hval, rfl⟩
  · exact absurd hseq.symm (count_ne _)

/-- `FLOAD` with a field active completes (R130). -/
theorem fload_exec {rd : FReg} (hfv : s.fv = true) : exec (.fload rd) s =
    .next (s.writeF rd (BitVec.ofNat 512 (dbufValue s.dbuf s.fieldWords))).countCommand := by
  change finish _ s (s.needField >>= _) = _
  rw [(needField_eq_ok (u := ())).2 hfv]
  rfl

/-- Settles O19: the first `L` words hold all the bits of a value that fits the field. -/
theorem storeThenLoadRestoresValue : Obligations.StoreThenLoadRestoresValue := by
  intro s t u ra rd hctx hreg hstore hseq hload
  obtain ⟨hfv, hval, ht⟩ := fstore_next hstore hseq
  have hfv' : t.fv = true := by simpa [ht] using hfv
  have hL : t.fieldWords = s.fieldWords := by simp [ht, State.fieldWords]
  have hd : t.dbuf = valueWords s.f[ra] := by simp [ht]
  have hwords : s.fieldWords ≤ 16 := by
    have := hctx.degree_le hfv
    unfold State.fieldWords wordCount; omega
  have hback : dbufValue (valueWords s.f[ra]) s.fieldWords = s.f[ra].toNat := by
    rw [dbufValue_valueWords _ hwords, Nat.mod_eq_of_lt (hreg.1 ra hval)]
  rw [fload_exec hfv', hL, hd, hback, BitVec.ofNat_toNat, BitVec.setWidth_eq] at hload
  obtain rfl := (Host.Outcome.next.inj hload).symm
  exact ⟨(set_getElem_fin t.f rd rd _).trans (if_pos rfl), (set_getElem_fin t.fval rd rd true).trans (if_pos rfl)⟩

/-! ### The register window -/

/-- A word access at an aligned offset of the window is done (R61, R64). -/
theorem onWindow_word {off : Nat} {o : Host.Outcome State Fault Refusal} (hlt : off < 0x1000) (h4 : off % 4 = 0) :
    onWindow off .word o = o := by
  unfold onWindow
  rw [if_neg (Nat.not_le.2 (show off < Config.windowBytes from hlt)), if_pos (by simp [admitted, h4])]

section
variable {off : Nat} {r : WindowReg} (hlt : off < 0x1000) (h4 : off % 4 = 0) (hr : windowReg off = some r)
include hlt h4 hr

/-- A word write at the offset of a register is the register's write (R61, R62). -/
theorem hostWrite_word (v : Word) (s : State) : hostWrite off .word v s = writeReg r v s := by
  rw [hostWrite, onWindow_word hlt h4, hr]

/-- A word read at the offset of a register returns the register (R61, R62). -/
theorem readsWord (s : State) : s.ReadsWord off (s.readReg r) := by
  rw [State.ReadsWord, hostRead, onWindow_word hlt h4, hr]
  rfl

end

/-- The registers with an offset of their own are found there (R62). -/
theorem windowReg_fixed : ∀ p ∈ fixedOffsets, p.1 < 0x1000 ∧ p.1 % 4 = 0 ∧ windowReg p.1 = some p.2 := by decide

theorem hostWrite_fixed {off : Nat} (r : WindowReg) (h : (off, r) ∈ fixedOffsets) (v : Word) (s : State) :
    hostWrite off .word v s = writeReg r v s :=
  have ⟨hlt, h4, hr⟩ := windowReg_fixed _ h
  hostWrite_word hlt h4 hr v s

theorem readsWord_fixed {off : Nat} (r : WindowReg) (h : (off, r) ∈ fixedOffsets) (s : State) :
    s.ReadsWord off (s.readReg r) :=
  have ⟨hlt, h4, hr⟩ := windowReg_fixed _ h
  readsWord hlt h4 hr s

theorem hostWrite_cmd (w : Word) (s : State) : hostWrite 0x018 .word w s = issueCommand w s :=
  hostWrite_fixed .cmd (by decide) w s

theorem hostWrite_ctrl (v : Word) (s : State) :
    hostWrite 0x010 .word v s = .next (if v.getLsbD 0 then s.resetEngine else s) :=
  hostWrite_fixed .ctrl (by decide) v s

theorem windowReg_dbuf (j : Fin 16) : windowReg (0x100 + 4 * j.val) = some (.dbuf j) := by
  have hj := j.isLt
  unfold windowReg
  rw [if_pos (by omega), show (0x100 + 4 * j.val - 0x100) / 4 = j.val by omega]
  simp

theorem windowReg_naf (j : Fin 257) : windowReg (0x400 + 4 * j.val) = some (.naf j) := by
  have hj := j.isLt
  unfold windowReg
  rw [if_neg (by omega), if_pos (by omega), show (0x400 + 4 * j.val - 0x400) / 4 = j.val by omega]
  simp

/-- Settles O5: the access is a write to `CMD`, which decodes the word. -/
theorem stepRunsDecodedCommand : Obligations.StepRunsDecodedCommand := by
  intro s w i rest hp hf hd
  rw [step_cons hp]
  show hostWrite 0x018 .word w _ = _
  rw [hostWrite_cmd, issueCommand, if_neg (by simp [hf]), hd]

/-- Settles O6: the write to `CMD` finds no command. -/
theorem illegalWordIsRecorded : Obligations.IllegalWordIsRecorded := by
  intro s w e hf he
  rw [hostWrite_cmd, issueCommand, if_neg (by simp [hf]), he]
  rfl

/-- Settles O13: bit 0 of the word written to `CTRL` decides, and the reset input does the same. -/
theorem bothResetSourcesLeaveResetState : Obligations.BothResetSourcesLeaveResetState := by
  intro s v
  refine ⟨readsWord_fixed .ctrl (by decide) s, fun hv => ?_, fun hv => ?_, rfl⟩
  · rw [hostWrite_ctrl, if_pos hv]; rfl
  · rw [hostWrite_ctrl, if_neg (Bool.not_eq_true _ ▸ hv)]

theorem writeReg_readOnly {r : WindowReg} (h : r.readOnly = true) (v : Word) (s : State) :
    writeReg r v s = .next s := by
  cases r with
  | ctrl | cmd | cfgM | cfgNk | cfgK1 | cfgK2 | cfgK3 | dbuf => cases h
  | _ => rfl

/-- Settles O10: each listed offset is that of its register, and a read-only register drops the write. -/
theorem windowWritesStoreOrAreIgnored : Obligations.WindowWritesStoreOrAreIgnored := by
  intro s v
  refine ⟨hostWrite_fixed .cfgM (by decide) v s, hostWrite_fixed .cfgNk (by decide) v s,
    hostWrite_fixed .cfgK1 (by decide) v s, hostWrite_fixed .cfgK2 (by decide) v s,
    hostWrite_fixed .cfgK3 (by decide) v s, fun j => ?_, fun off r hlt h4 hr hro => ?_⟩
  · have hj := j.isLt
    exact hostWrite_word (by omega) (by omega) (windowReg_dbuf j) v s
  · rw [hostWrite_word hlt h4 hr, writeReg_readOnly hro]

theorem getLsbD_append_ofBool_zero {n : Nat} (x : BitVec n) (b : Bool) : (x ++ BitVec.ofBool b).getLsbD 0 = b := by
  rw [BitVec.getLsbD_append]; simp

theorem getLsbD_append_ofBool_succ {n : Nat} (x : BitVec n) (b : Bool) (i : Nat) :
    (x ++ BitVec.ofBool b).getLsbD (i + 1) = x.getLsbD i := by
  rw [BitVec.getLsbD_append]; simp

theorem extractLsb'_append_ofBool_succ {n : Nat} (x : BitVec n) (b : Bool) (i len : Nat) :
    (x ++ BitVec.ofBool b).extractLsb' (i + 1) len = x.extractLsb' i len :=
  BitVec.extractLsb'_append_eq_of_le (Nat.le_add_left 1 i)

theorem status_fields (s : State) : s.status.getLsbD 0 = s.fault ∧ s.status.getLsbD 1 = s.fv ∧
    s.status.getLsbD 2 = s.cv ∧ s.status.getLsbD 3 = s.nv ∧ s.status.getLsbD 4 = s.tv ∧
    s.status.extractLsb' 5 3 = 0 ∧ s.status.extractLsb' 8 8 = s.errcode ∧ s.status.extractLsb' 16 16 = 0 := by
  unfold State.status
  refine ⟨?_, ?_, ?_, ?_, ?_, ?_, ?_, ?_⟩
  · exact getLsbD_append_ofBool_zero ..
  · iterate 1 rw [getLsbD_append_ofBool_succ]
    exact getLsbD_append_ofBool_zero ..
  · iterate 2 rw [getLsbD_append_ofBool_succ]
    exact getLsbD_append_ofBool_zero ..
  · iterate 3 rw [getLsbD_append_ofBool_succ]
    exact getLsbD_append_ofBool_zero ..
  · iterate 4 rw [getLsbD_append_ofBool_succ]
    exact getLsbD_append_ofBool_zero ..
  · iterate 5 rw [extractLsb'_append_ofBool_succ]
    exact BitVec.extractLsb'_append_eq_right
  · iterate 5 rw [extractLsb'_append_ofBool_succ]
    exact (BitVec.extractLsb'_append_eq_of_le (le_refl 3)).trans BitVec.extractLsb'_append_eq_right
  · iterate 5 rw [extractLsb'_append_ofBool_succ]
    rw [BitVec.extractLsb'_append_eq_of_le (by decide), BitVec.extractLsb'_append_eq_of_le (by decide)]
    exact BitVec.extractLsb'_eq_self

/-- The three fields of a word built from them, from the lowest up. -/
theorem extract_three {a b c : Nat} (x : BitVec a) (y : BitVec b) (z : BitVec c) :
    (x ++ y ++ z).extractLsb' 0 c = z ∧ (x ++ y ++ z).extractLsb' c b = y ∧
      (x ++ y ++ z).extractLsb' (c + b) a = x := by
  refine ⟨BitVec.extractLsb'_append_eq_right, ?_, ?_⟩
  · rw [BitVec.extractLsb'_append_eq_of_le (le_refl c), Nat.sub_self, BitVec.extractLsb'_append_eq_right]
  · rw [BitVec.extractLsb'_append_eq_of_le (Nat.le_add_right c b), Nat.add_sub_cancel_left,
      BitVec.extractLsb'_append_eq_left]

theorem readsWord_naf (j : Fin 257) (s : State) :
    s.ReadsWord (0x400 + 4 * j.val) (if s.nv = true ∧ j.val < s.nafLen.toNat then s.naf[j] else 0) := by
  have hj := j.isLt
  have h := readsWord (by omega) (by omega) (windowReg_naf j) s
  have hval : s.readReg (.naf j) = if s.nv = true ∧ j.val < s.nafLen.toNat then s.naf[j] else 0 := by
    simp [State.readReg, State.nafEntry, gated]
  rwa [hval] at h

/-- What the six registers of the field context read, gated by `FV` (R29). -/
theorem readsWord_fieldContext (s : State) :
    s.ReadsWord 0x050 (gated s.fv s.fldM) ∧ s.ReadsWord 0x054 (gated s.fv s.fldNk) ∧
    s.ReadsWord 0x058 (gated s.fv s.fldK1) ∧ s.ReadsWord 0x05C (gated s.fv s.fldK2) ∧
    s.ReadsWord 0x060 (gated s.fv s.fldK3) ∧ s.ReadsWord 0x064 (gated s.fv (BitVec.ofNat 32 s.fieldWords)) :=
  ⟨readsWord_fixed .fldM (by decide) s, readsWord_fixed .fldNk (by decide) s, readsWord_fixed .fldK1 (by decide) s,
    readsWord_fixed .fldK2 (by decide) s, readsWord_fixed .fldK3 (by decide) s, readsWord_fixed .fldL (by decide) s⟩

/-- Settles O8: each listed offset is that of its register. -/
theorem windowReadsReturnRegisters : Obligations.WindowReadsReturnRegisters := by
  intro s
  have hnaf := readsWord_fixed .nafinfo (off := 0x028) (by decide) s
  have htbl := readsWord_fixed .tblinfo (off := 0x02C) (by decide) s
  have hfld := readsWord_fieldContext s
  refine ⟨?ident, ?zero, ⟨s.status, readsWord_fixed .status (by decide) s, status_fields s⟩, ?plain,
    fun hnv => ?nafOff, fun hnv => ?nafOn, fun htv => ?tblOff, fun htv => ?tblOn, ?staging,
    fun hfv => ?fldOff, fun hfv => ?fldOn, fun j => ?dbuf, fun j => readsWord_naf j s⟩
  case ident =>
    exact ⟨readsWord_fixed .id (by decide) s, readsWord_fixed .version (by decide) s,
      readsWord_fixed .param0 (by decide) s, readsWord_fixed .param1 (by decide) s⟩
  case zero => exact ⟨readsWord_fixed .ctrl (by decide) s, readsWord_fixed .cmd (by decide) s⟩
  case plain =>
    exact ⟨readsWord_fixed .res (by decide) s, readsWord_fixed .faultcmd (by decide) s,
      readsWord_fixed .cseq (by decide) s⟩
  case nafOff => rwa [State.readReg, State.nafInfo, hnv] at hnaf
  case nafOn =>
    rw [State.readReg, State.nafInfo, hnv] at hnaf
    exact ⟨_, hnaf, extract_three 0#8 s.nafW s.nafLen⟩
  case tblOff => rwa [State.readReg, State.tblInfo, htv] at htbl
  case tblOn =>
    rw [State.readReg, State.tblInfo, htv] at htbl
    exact ⟨_, htbl, extract_three 0#8 (BitVec.ofNat 16 (2 ^ (s.tw.toNat - 2))) s.tw⟩
  case staging =>
    exact ⟨readsWord_fixed .cfgM (by decide) s, readsWord_fixed .cfgNk (by decide) s,
      readsWord_fixed .cfgK1 (by decide) s, readsWord_fixed .cfgK2 (by decide) s,
      readsWord_fixed .cfgK3 (by decide) s⟩
  case fldOff => rwa [hfv] at hfld
  case fldOn => rwa [hfv] at hfld
  case dbuf =>
    have hj := j.isLt
    exact readsWord (by omega) (by omega) (windowReg_dbuf j) s

/-- Settles O14: the fields of `State.reset`, and `STATUS` read of it. -/
theorem resetValues : Obligations.ResetValues := by
  refine ⟨replicate_getElem_fin false, replicate_getElem_fin false, rfl, rfl, rfl, rfl, rfl, rfl, rfl, rfl, rfl, rfl,
    rfl, rfl, rfl, replicate_getElem_fin 0, rfl, rfl, rfl, rfl, rfl, rfl, rfl, rfl, rfl, ?_⟩
  exact readsWord_fixed .status (by decide) State.reset

end
end Sys2Proof.Machine

/-! Proofs. The accesses of the window that reach no register: reads and writes of a reserved offset, accesses that are not
one aligned word, and accesses outside the window. -/

namespace Sys2Proof.Machine

section
variable {off : Nat} {size : AccessSize}

/-! ### Reads -/

/-- Settles O9: a read returns the value of a register, or draws one. -/
theorem readsHaveNoSideEffects : Obligations.ReadsHaveNoSideEffects := by
  intro s t off size h
  obtain ⟨-, -, ⟨r, -, rfl⟩ | ⟨hnone, rfl⟩⟩ := hostRead_next_iff.1 h
  · exact ⟨s.readReg r, s.draws, rfl, fun _ => rfl⟩
  · exact ⟨Config.reservedRead s.draws, s.draws + 1, rfl, fun hsome => absurd hnone hsome⟩

/-! ### Reserved offsets -/

/-- The registers with an offset of their own lie in two blocks (R62). -/
theorem fixedOffsets_blocks : ∀ p ∈ fixedOffsets, p.1 ≤ 0x040 ∨ (0x050 ≤ p.1 ∧ p.1 ≤ 0x064) := by decide

/-- An offset outside those two blocks, `DBUF` and `NAF` has no register (R66). -/
theorem windowReg_eq_none (hfixed : ¬ (off ≤ 0x040 ∨ (0x050 ≤ off ∧ off ≤ 0x064)))
    (hdbuf : ¬ (0x100 ≤ off ∧ off < 0x140)) (hnaf : ¬ (0x400 ≤ off ∧ off ≤ 0x800)) : windowReg off = none := by
  unfold windowReg
  rw [if_neg hdbuf, if_neg hnaf, List.lookup_eq_none_iff]
  intro p hp
  have hne : off ≠ p.1 := fun h => hfixed (h ▸ fixedOffsets_blocks p hp)
  exact bne_iff_ne.2 hne

section
variable (hlt : off < 0x1000) (h4 : off % 4 = 0) (hr : windowReg off = none)
include hlt h4 hr

/-- A word write at a reserved offset is ignored (R66). -/
theorem hostWrite_reserved (v : Word) (s : State) : hostWrite off .word v s = .next s := by
  rw [hostWrite, onWindow_word hlt h4, hr]

/-- A word read at a reserved offset is a free draw (R66). -/
theorem hostRead_reserved (s : State) : hostRead off .word s = .next s.replyFree := by
  rw [hostRead, onWindow_word hlt h4, hr]

end

/-- Settles O11: the four ranges leave out every block of registers. -/
theorem reservedOffsetsAreInert : Obligations.ReservedOffsetsAreInert := by
  intro s v off h4 hrange
  have hlt : off < 0x1000 := by omega
  have hr : windowReg off = none := windowReg_eq_none (by omega) (by omega) (by omega)
  exact ⟨hr, hostWrite_reserved hlt h4 hr v s, Config.reservedRead s.draws, hostRead_reserved hlt h4 hr s⟩

/-! ### Accesses that are not admitted -/

theorem admitted_iff : admitted off size = true ↔ size = .word ∧ off % 4 = 0 := by
  rw [admitted, Bool.and_eq_true, beq_iff_eq, beq_iff_eq]

/-- Inside the window, an access that is not one aligned word is refused, whatever it would do (R64). -/
theorem onWindow_unadmitted (hlt : off < 0x1000) (h : size ≠ .word ∨ off % 4 ≠ 0)
    (o : Host.Outcome State Fault Refusal) : onWindow off size o = .refused .unsupportedAccess := by
  have hadm : ¬ admitted off size = true := fun ha =>
    have ⟨hword, h4⟩ := admitted_iff.1 ha
    h.elim (· hword) (· h4)
  unfold onWindow
  rw [if_neg (Nat.not_le.2 (show off < Config.windowBytes from hlt)), if_neg hadm]

/-- Outside the window every access stops the model, whatever it would do (R60, R67). -/
theorem onWindow_outside (h : 0x1000 ≤ off) (o : Host.Outcome State Fault Refusal) :
    onWindow off size o = .fault .outsideWindow := by
  unfold onWindow
  rw [if_pos (show Config.windowBytes ≤ off from h)]

/-- Settles O12: reads and writes pass the same check of the access. -/
theorem unadmittedAccessesStop : Obligations.UnadmittedAccessesStop := by
  intro s off size v
  refine ⟨fun hlt h => ?inside, fun h => ?outside⟩
  case inside => exact ⟨onWindow_unadmitted hlt h _, onWindow_unadmitted hlt h _⟩
  case outside => exact ⟨onWindow_outside h _, onWindow_outside h _⟩

end
end Sys2Proof.Machine

/-! Proofs. Words and commands are the same thing said twice: decoding takes the only row whose test a word passes, and
reads from it what the encoder put there. -/

namespace Sys2Proof

section
variable {w : Word} {i : Instr} {r : OpcodeRow}

/-! ### The row a word belongs to (R91, R95) -/

/-- No two rows share an opcode (R95). -/
theorem OpcodeRow.eq_of_op_eq {r q : OpcodeRow} (hr : r ∈ opcodeMap) (hq : q ∈ opcodeMap) (h : r.op = q.op) : r = q :=
  List.inj_on_of_nodup_map (f := OpcodeRow.op) (by decide) hr hq h

/-- Looking an opcode up gives the row that has it. -/
theorem find?_op_eq_some {op : BitVec 8} :
    opcodeMap.find? (fun q => q.op == op) = some r ↔ r ∈ opcodeMap ∧ r.op = op := by
  constructor
  · intro h
    exact ⟨List.mem_of_find?_eq_some h, beq_iff_eq.1 (List.find?_some (p := fun q : OpcodeRow => q.op == op) h)⟩
  · rintro ⟨hr, rfl⟩
    have hsome : (opcodeMap.find? fun q => q.op == r.op).isSome := List.find?_isSome.2 ⟨r, hr, beq_self_eq_true _⟩
    obtain ⟨q, hq⟩ := Option.isSome_iff_exists.1 hsome
    have hop : q.op = r.op := beq_iff_eq.1 (List.find?_some (p := fun q : OpcodeRow => q.op == r.op) hq)
    rw [hq, OpcodeRow.eq_of_op_eq (List.mem_of_find?_eq_some hq) hr hop]

/-- Every format fixes the whole opcode (R93). -/
theorem Format.opField_mask (f : Format) : opField f.mask = 0xFF#8 := by
  cases f <;> exact opField_mkWord ..

/-- A word that passes a row's test has the row's opcode: the mask keeps all of it. -/
theorem OpcodeRow.op_eq_of_accepts (h : r.accepts w = true) : r.op = opField w := by
  have hmask : opField (w &&& r.format.mask) = opField w &&& opField r.format.mask := BitVec.extractLsb'_and
  have hones : opField w &&& 0xFF#8 = opField w := BitVec.and_allOnes
  rw [OpcodeRow.accepts, beq_iff_eq] at h
  rw [h, OpcodeRow.matchBits, opField_mkWord, Format.opField_mask, hones] at hmask
  exact hmask

/-! ### What decoding answers -/

/-- A word decodes to what a row reads from it, where it passes the row's test. -/
theorem decode_eq_ok_iff : decode w = .ok i ↔ ∃ r ∈ opcodeMap, r.accepts w = true ∧ r.read w = i := by
  constructor
  · intro h
    unfold decode at h
    split at h
    · cases h
    · next r hr =>
      split at h
      · next hacc => exact ⟨r, (find?_op_eq_some.1 hr).1, hacc, Except.ok.inj h⟩
      · cases h
  · rintro ⟨r, hr, hacc, rfl⟩
    rw [decode, find?_op_eq_some.2 ⟨hr, OpcodeRow.op_eq_of_accepts hacc⟩]
    exact if_pos hacc

/-- The opcode of a word is unassigned when no row has it (R96 (a)). -/
theorem decode_eq_unassigned_iff : decode w = .error .unassignedOpcode ↔ ∀ r ∈ opcodeMap, r.op ≠ opField w := by
  have hnone : opcodeMap.find? (fun q => q.op == opField w) = none ↔ ∀ r ∈ opcodeMap, r.op ≠ opField w := by
    simp only [List.find?_eq_none, beq_iff_eq, ne_eq]
  rw [← hnone]
  unfold decode
  split
  · next h => exact iff_of_true rfl h
  · next r h =>
    rw [h]
    split <;> exact iff_of_false nofun nofun

/-! ### The word of a command decodes to it (R91 to R95) -/

/-- A word given by its fields decodes through the row of its opcode. -/
theorem decode_mkWord {op : BitVec 8} {rd ra rb : BitVec 4} {imm : BitVec 12}
    (hrow : opcodeMap.find? (fun q => q.op == op) = some r) (hacc : r.accepts (mkWord op rd ra rb imm) = true)
    (hread : r.read (mkWord op rd ra rb imm) = i) : decode (mkWord op rd ra rb imm) = .ok i :=
  decode_eq_ok_iff.2 ⟨r, (find?_op_eq_some.1 hrow).1, hacc, hread⟩

/-- An immediate in range is read back (R94). -/
theorem toNat_immBits {imm : Nat} (h : immInRange imm = true) : (immBits imm).toNat = imm :=
  BitVec.toNat_ofNat .. ▸ Nat.mod_eq_of_lt (of_decide_eq_true h)

/-- The `NEG` bit of `PMUL` leaves the reserved bits 0 and is read back (R93). -/
theorem pmulImm_fields (neg : Bool) : pmulImm neg &&& 0xFFE#12 = 0#12 ∧ (pmulImm neg)[0] = neg := by
  cases neg <;> decide

/-- The `NEG` bit and the index of `TBLRD` leave the reserved bits 0 and are read back (R93). -/
theorem tblrdImm_fields (neg : Bool) (idx : Fin 64) :
    tblrdImm neg idx &&& 0x7C0#12 = 0#12 ∧ (tblrdImm neg idx)[11] = neg ∧
      (tblrdImm neg idx).toNat % 64 = idx.val := by
  revert neg idx; decide

/-- The fields a row's test wants 0 are 0 in the encoding, and the fields its `read` takes hold the operands. Beyond the
register fields there are three cases: an immediate, the `NEG` bit of `PMUL`, and the `NEG` bit and index of `TBLRD`. -/
theorem decode_encode (hi : i.wellFormed = true) : decode (encode i) = .ok i := by
  cases i
  case fldi | ftstb | fsetb | fclrb | fshr | wsizei | wnaf | precomp | ptp2 =>
    have himm := toNat_immBits hi
    exact decode_mkWord rfl ((accepts_iff rfl).2 (by simp)) (by simp [immValue, himm])
  case pmul neg =>
    obtain ⟨hzero, hneg⟩ := pmulImm_fields neg
    exact decode_mkWord rfl ((accepts_iff rfl).2 (by simp [hzero])) (by simp [hneg])
  case tblrd neg idx =>
    obtain ⟨hzero, hneg, hidx⟩ := tblrdImm_fields neg idx
    exact decode_mkWord rfl ((accepts_iff rfl).2 (by simp [hzero])) (by simp [idxValue, immValue, hneg, hidx])
  all_goals exact decode_mkWord rfl ((accepts_iff rfl).2 (by simp)) (by simp)

/-- Settles O1: every command is read back by the row of its opcode. -/
theorem decodeOfEncodeIsIdentity : Obligations.DecodeOfEncodeIsIdentity :=
  fun _ hi => decode_encode hi

/-- Settles O2: each row reads commands whose encoding is the word. -/
theorem encodeOfDecodeIsIdentity : Obligations.EncodeOfDecodeIsIdentity :=
  fun _ _ h => encode_of_decode h

/-! ### The illegal words (R96, R302) -/

/-- The opcodes no row has (R95). -/
theorem unassigned_opcodes (op : BitVec 8) : (∀ r ∈ opcodeMap, r.op ≠ op) ↔
    (0x07 ≤ op.toNat ∧ op.toNat ≤ 0x0F) ∨ op.toNat = 0x17 ∨ (0x2D ≤ op.toNat ∧ op.toNat ≤ 0x2F) ∨ 0x38 ≤ op.toNat := by
  revert op; decide +kernel

/-- The opcode is the top byte of the word (R92). -/
theorem toNat_opField (w : Word) : (opField w).toNat = (w >>> 24).toNat := by
  have := w.isLt
  simp only [opField, BitVec.extractLsb'_toNat, BitVec.toNat_ushiftRight, Nat.shiftRight_eq_div_pow]
  omega

/-- Settles O3: a legal word passes the test of a row, and only the opcodes without a row are unassigned. -/
theorem decodeRejectsExactlyUnmatchedWords : Obligations.DecodeRejectsExactlyUnmatchedWords := by
  intro w
  constructor
  · constructor
    · rintro ⟨i, h⟩
      obtain ⟨r, hr, hacc, -⟩ := decode_eq_ok_iff.1 h
      exact ⟨r, hr, beq_iff_eq.1 hacc⟩
    · rintro ⟨r, hr, hacc⟩
      exact ⟨r.read w, decode_eq_ok_iff.2 ⟨r, hr, beq_iff_eq.2 hacc, rfl⟩⟩
  · rw [decode_eq_unassigned_iff, unassigned_opcodes, toNat_opField]

/-- Settles O4: the words are closed terms, and decoding runs on them. -/
theorem decodeReadsSampleWords : Obligations.DecodeReadsSampleWords := by
  unfold Obligations.DecodeReadsSampleWords
  decide

end

end Sys2Proof

/-! Proofs. Bit-polynomials are the polynomials over GF(2), and residues modulo a field's modulus their quotient ring:
the field functions of R121 to R124 are the operations of that ring, whatever the modulus. -/

namespace Sys2Proof.Machine

section
open Polynomial

variable {K : FieldCtx} {a b n v : Nat}

/-! ### An integer as a polynomial over GF(2) (R121) -/

/-- A bit as an element of GF(2). -/
def bitValue (b : Bool) : ZMod 2 := if b then 1 else 0

@[simp] theorem bitValue_false : bitValue false = 0 := rfl

@[simp] theorem bitValue_true : bitValue true = 1 := rfl

theorem bitValue_inj {b c : Bool} : bitValue b = bitValue c ↔ b = c := by revert b c; decide

theorem bitValue_xor (b c : Bool) : bitValue (b ^^ c) = bitValue b + bitValue c := by revert b c; decide

theorem bitValue_and (b c : Bool) : bitValue (b && c) = bitValue b * bitValue c := by revert b c; decide

/-- Every element of GF(2) is a bit. -/
theorem bitValue_surjective (x : ZMod 2) : ∃ b, bitValue b = x := by revert x; decide

/-- The integer read as a polynomial: bit `i` is the coefficient of `x^i` (R121). -/
noncomputable def toPoly (v : Nat) : (ZMod 2)[X] := ∑ i ∈ Finset.range (blen v), monomial i (bitValue (v.testBit i))

theorem testBit_eq_false_of_blen_le (h : blen v ≤ n) : v.testBit n = false :=
  Nat.testBit_lt_two_pow (blen_le_iff.1 h)

@[simp] theorem coeff_toPoly (v n : Nat) : (toPoly v).coeff n = bitValue (v.testBit n) := by
  simp only [toPoly, finsetSum_coeff, coeff_monomial, Finset.sum_ite_eq', Finset.mem_range]
  split
  · rfl
  · next h => rw [testBit_eq_false_of_blen_le (Nat.le_of_not_lt h), bitValue_false]

theorem toPoly_inj : toPoly a = toPoly b ↔ a = b := by
  refine ⟨fun h => Nat.eq_of_testBit_eq fun i => ?_, congrArg toPoly⟩
  rw [← bitValue_inj, ← coeff_toPoly, ← coeff_toPoly, h]

/-- XOR is addition (R121). -/
@[simp] theorem toPoly_xor (a b : Nat) : toPoly (a ^^^ b) = toPoly a + toPoly b := by
  ext n
  rw [coeff_add, coeff_toPoly, coeff_toPoly, coeff_toPoly, Nat.testBit_xor, bitValue_xor]

@[simp] theorem toPoly_zero : toPoly 0 = 0 := by
  ext n
  rw [coeff_toPoly, Nat.zero_testBit, bitValue_false, coeff_zero]

@[simp] theorem toPoly_two_pow (n : Nat) : toPoly (2 ^ n) = X ^ n := by
  ext i
  rw [coeff_toPoly, Nat.testBit_two_pow, coeff_X_pow]
  by_cases h : n = i
  · simp [h]
  · simp [h, Ne.symm h]

@[simp] theorem toPoly_one : toPoly 1 = 1 := toPoly_two_pow 0

@[simp] theorem toPoly_shiftLeft (a n : Nat) : toPoly (a <<< n) = toPoly a * X ^ n := by
  ext i
  rw [coeff_toPoly, Nat.testBit_shiftLeft, coeff_mul_X_pow', coeff_toPoly]
  by_cases h : n ≤ i <;> simp [h]

@[simp] theorem toPoly_eq_zero : toPoly v = 0 ↔ v = 0 := by rw [← toPoly_zero, toPoly_inj]

/-- Every polynomial over GF(2) is that of an integer. -/
theorem toPoly_surjective (p : (ZMod 2)[X]) : ∃ v, toPoly v = p := by
  induction p using Polynomial.induction_on' with
  | add p q hp hq =>
    obtain ⟨a, rfl⟩ := hp
    obtain ⟨b, rfl⟩ := hq
    exact ⟨a ^^^ b, toPoly_xor a b⟩
  | monomial n x =>
    obtain ⟨bit, rfl⟩ := bitValue_surjective x
    cases bit with
    | false => exact ⟨0, by simp⟩
    | true => exact ⟨2 ^ n, by rw [toPoly_two_pow, bitValue_true, X_pow_eq_monomial]⟩

/-- A value is below `2^n` exactly when its polynomial has degree below `n`. -/
theorem degree_toPoly_lt : (toPoly v).degree < n ↔ v < 2 ^ n := by
  simp only [degree_lt_iff_coeff_zero, coeff_toPoly, ← bitValue_false, bitValue_inj]
  exact ⟨Nat.lt_pow_two_of_testBit v, fun h i hi =>
    Nat.testBit_lt_two_pow (h.trans_le (Nat.pow_le_pow_right (by decide) hi))⟩

/-- The degree is one below the bit length. -/
theorem natDegree_toPoly (h : v ≠ 0) : (toPoly v).natDegree + 1 = blen v :=
  eq_of_forall_ge_iff fun n => by
    rw [Nat.succ_le_iff, natDegree_lt_iff_degree_lt (mt toPoly_eq_zero.1 h), degree_toPoly_lt, blen_le_iff]

/-- Over GF(2) every non-zero polynomial is monic. -/
theorem toPoly_monic (h : v ≠ 0) : (toPoly v).Monic := by
  have hne : (toPoly v).leadingCoeff ≠ 0 := leadingCoeff_ne_zero.2 fun h0 => h (toPoly_eq_zero.1 h0)
  have hone : ∀ x : ZMod 2, x ≠ 0 → x = 1 := by decide
  exact hone _ hne

/-! ### The carry-less product (R121) -/

theorem toPoly_clmulLow (a b n : Nat) :
    toPoly (clmulLow a b n) = toPoly a * ∑ i ∈ Finset.range n, monomial i (bitValue (b.testBit i)) := by
  induction n with
  | zero => simp
  | succ n ih =>
    rw [clmulLow_succ, toPoly_xor, ih, Finset.sum_range_succ, mul_add]
    cases b.testBit n <;> simp [X_pow_eq_monomial]

/-- The carry-less product is the product of the polynomials (R121). -/
@[simp] theorem toPoly_clmul (a b : Nat) : toPoly (clmul a b) = toPoly a * toPoly b := toPoly_clmulLow a b (blen b)

/-- The parity of a list of bits is their sum in GF(2). -/
theorem bitValue_foldl_xor (g : Nat → Bool) (n : Nat) :
    bitValue ((List.range n).foldl (fun acc i => acc ^^ g i) false) = ∑ i ∈ Finset.range n, bitValue (g i) := by
  induction n with
  | zero => rfl
  | succ n ih => rw [List.range_succ, List.foldl_append, Finset.sum_range_succ, ← ih]; exact bitValue_xor _ _

/-- Bit `n` of a product: the parity over the positions that add to `n` (R121). -/
theorem testBit_clmul (a b n : Nat) : (clmul a b).testBit n =
    (List.range (n + 1)).foldl (fun acc i => acc ^^ (a.testBit i && b.testBit (n - i))) false := by
  rw [← bitValue_inj, bitValue_foldl_xor, ← coeff_toPoly, toPoly_clmul, coeff_mul,
    Finset.Nat.sum_antidiagonal_eq_sum_range_succ_mk]
  simp only [coeff_toPoly, bitValue_and]

theorem clmul_comm (a b : Nat) : clmul a b = clmul b a :=
  toPoly_inj.1 (by rw [toPoly_clmul, toPoly_clmul, mul_comm])

theorem clmul_two_pow (a i : Nat) : clmul a (2 ^ i) = a <<< i := toPoly_inj.1 (by simp)

theorem clmul_zero (a : Nat) : clmul a 0 = 0 := rfl

theorem clmul_eq_zero : clmul a b = 0 ↔ a = 0 ∨ b = 0 := by
  rw [← toPoly_eq_zero, toPoly_clmul, mul_eq_zero, toPoly_eq_zero, toPoly_eq_zero]

/-- The degree of a product is the sum of the degrees. -/
theorem blen_clmul (ha : a ≠ 0) (hb : b ≠ 0) : blen (clmul a b) + 1 = blen a + blen b := by
  have hab : clmul a b ≠ 0 := mt clmul_eq_zero.1 (not_or.2 ⟨ha, hb⟩)
  rw [← natDegree_toPoly ha, ← natDegree_toPoly hb, ← natDegree_toPoly hab, toPoly_clmul,
    natDegree_mul (mt toPoly_eq_zero.1 ha) (mt toPoly_eq_zero.1 hb)]
  omega

theorem clmul_lt {i j k : Nat} (ha : a < 2 ^ i) (hb : b < 2 ^ j) (hk : i + j ≤ k + 1) : clmul a b < 2 ^ k := by
  by_cases h : clmul a b = 0
  · rw [h]; exact Nat.two_pow_pos k
  · obtain ⟨ha0, hb0⟩ := not_or.1 (mt clmul_eq_zero.2 h)
    have hlen := blen_clmul ha0 hb0
    have hla := blen_le_iff.2 ha
    have hlb := blen_le_iff.2 hb
    exact blen_le_iff.1 (by omega)

/-- Settles O38: the coefficients of a product of polynomials. -/
theorem clmulIsCarrylessProduct : Obligations.ClmulIsCarrylessProduct := by
  intro a b
  have hone : clmul a (2 ^ 0) = a := by rw [clmul_two_pow, Nat.shiftLeft_zero]
  exact ⟨testBit_clmul a b, clmul_comm a b, clmul_zero a, hone, clmul_two_pow a,
    fun ha hb => clmul_lt ha hb le_rfl⟩

end
end Sys2Proof.Machine

/-! Proofs. The residue ring of a field context, whatever its modulus: reduction picks the reduced member of a residue
class, and XOR, `fmul` and `fsqr` are the ring's operations. -/

namespace Sys2Proof.Machine

section
open Polynomial

variable {K : FieldCtx} {a b v : Nat}

/-! ### Residues modulo the modulus (R122) -/

/-- The polynomials over GF(2) modulo the modulus of the context. -/
abbrev ResidueRing (K : FieldCtx) : Type := AdjoinRoot (toPoly K.f)

/-- The residue class of a value. -/
noncomputable def residue (K : FieldCtx) (v : Nat) : ResidueRing K := AdjoinRoot.mk (toPoly K.f) (toPoly v)

@[simp] theorem residue_xor (a b : Nat) : residue K (a ^^^ b) = residue K a + residue K b := by
  rw [residue, toPoly_xor, map_add]; rfl

@[simp] theorem residue_zero : residue K 0 = 0 := by rw [residue, toPoly_zero, map_zero]

@[simp] theorem residue_one : residue K 1 = 1 := by rw [residue, toPoly_one, map_one]

@[simp] theorem residue_clmul (a b : Nat) : residue K (clmul a b) = residue K a * residue K b := by
  rw [residue, toPoly_clmul, map_mul]; rfl

@[simp] theorem residue_modulus : residue K K.f = 0 := AdjoinRoot.mk_self

/-- A value is in the class of 0 exactly when it is a multiple of the modulus. -/
theorem residue_eq_zero_iff : residue K v = 0 ↔ ∃ q, v = clmul q K.f := by
  rw [residue, AdjoinRoot.mk_eq_zero]
  constructor
  · rintro ⟨p, hp⟩
    obtain ⟨q, rfl⟩ := toPoly_surjective p
    exact ⟨q, toPoly_inj.1 (by rw [toPoly_clmul, hp, mul_comm])⟩
  · rintro ⟨q, rfl⟩
    exact ⟨toPoly q, by rw [toPoly_clmul, mul_comm]⟩

/-- The residue ring has characteristic 2. -/
theorem residueRing_add_self (x : ResidueRing K) : x + x = 0 := by
  obtain ⟨p, rfl⟩ := AdjoinRoot.mk_surjective x
  rw [← map_add, CharTwo.add_self_eq_zero, map_zero]

/-- Two values are in one class exactly when they differ by a multiple of the modulus. -/
theorem residue_eq_iff_xor : residue K a = residue K b ↔ residue K (a ^^^ b) = 0 := by
  rw [residue_xor]
  constructor
  · intro h; rw [h, residueRing_add_self]
  · intro h
    rw [← add_zero (residue K a), ← residueRing_add_self (residue K b), ← add_assoc, h, zero_add]

/-- Reduction keeps the residue class (R122). -/
theorem residue_redLoop (n v : Nat) : residue K (redLoop K n v) = residue K v := by
  induction n generalizing v with
  | zero => rfl
  | succ n ih =>
    rw [redLoop_succ]
    split
    · rw [ih, ← clmul_two_pow, residue_xor, residue_clmul, residue_modulus, zero_mul, add_zero]
    · rfl

@[simp] theorem residue_red (v : Nat) : residue K (red K v) = residue K v := residue_redLoop _ v

@[simp] theorem residue_fmul (a b : Nat) : residue K (fmul K a b) = residue K a * residue K b := by
  rw [fmul, residue_red, residue_clmul]

@[simp] theorem residue_fsqr (a : Nat) : residue K (fsqr K a) = residue K a ^ 2 := by
  rw [fsqr, residue_fmul, sq]

section
variable (hK : K.Sound)
include hK

theorem FieldCtx.Sound.modulus_ne_zero : K.f ≠ 0 := fun h => by
  have := hK.2
  rw [h, blen_zero] at this
  omega

theorem FieldCtx.Sound.natDegree_modulus : (toPoly K.f).natDegree = K.m := by
  have := natDegree_toPoly hK.modulus_ne_zero
  have := hK.2
  omega

/-- A reduced multiple of the modulus is 0. -/
theorem eq_zero_of_residue_eq_zero (hv : v < 2 ^ K.m) (h : residue K v = 0) : v = 0 := by
  obtain ⟨q, rfl⟩ := residue_eq_zero_iff.1 h
  by_contra hne
  obtain ⟨hq, -⟩ := not_or.1 (mt clmul_eq_zero.2 hne)
  have hlen := blen_clmul hq hK.modulus_ne_zero
  have hpos : blen q ≠ 0 := by rw [blen_of_ne_zero hq]; omega
  have hle := blen_le_iff.2 hv
  have hf := hK.2
  omega

/-- Every class has one reduced member (R122). -/
theorem residue_inj (ha : a < 2 ^ K.m) (hb : b < 2 ^ K.m) : residue K a = residue K b ↔ a = b := by
  refine ⟨fun h => ?_, congrArg _⟩
  exact Nat.xor_eq_zero_iff.1 (eq_zero_of_residue_eq_zero hK (Nat.xor_lt_two_pow ha hb) (residue_eq_iff_xor.1 h))

theorem residue_surjective (x : ResidueRing K) : ∃ v < 2 ^ K.m, residue K v = x := by
  obtain ⟨p, rfl⟩ := AdjoinRoot.mk_surjective x
  obtain ⟨v, rfl⟩ := toPoly_surjective p
  exact ⟨red K v, red_lt hK v, residue_red v⟩

/-- Reduction answers the reduced member of the class. -/
theorem red_eq_iff (hb : b < 2 ^ K.m) : red K a = b ↔ residue K a = residue K b := by
  rw [← residue_inj hK (red_lt hK a) hb, residue_red]

theorem red_eq_zero_iff : red K a = 0 ↔ residue K a = 0 := by
  rw [red_eq_iff hK (Nat.two_pow_pos _), residue_zero]

theorem red_of_lt (h : a < 2 ^ K.m) : red K a = a := (red_eq_iff hK h).2 rfl

theorem one_lt_two_pow_degree : 1 < 2 ^ K.m := Nat.one_lt_two_pow (by have := hK.1; omega)

theorem residueRing_nontrivial : Nontrivial (ResidueRing K) :=
  ⟨0, 1, fun h => by
    have := (residue_inj hK (Nat.two_pow_pos _) (one_lt_two_pow_degree hK)).1
      ((residue_zero (K := K)).trans (h.trans residue_one.symm))
    omega⟩

theorem residueRing_charTwo : CharP (ResidueRing K) 2 :=
  have := residueRing_nontrivial hK
  CharTwo.of_one_ne_zero_of_two_eq_zero one_ne_zero (by rw [← one_add_one_eq_two, residueRing_add_self])

/-- The modulus without its leading term is reduced. -/
theorem tail_lt : K.tail < 2 ^ K.m := by
  have hlead : blen (2 ^ K.m) = K.m + 1 := by rw [blen_eq_size, Nat.size_pow]
  exact blen_le_iff.1 (Nat.le_of_lt_succ (blen_xor_lt hK.2 hlead))

end

/-- Settles O39: reduction picks the one reduced member of the residue class. -/
theorem redIsTheUniqueResidue : Obligations.RedIsTheUniqueResidue := by
  intro K v hK
  have multiple_iff : ∀ r, (∃ q, v ^^^ r = clmul q K.f) ↔ residue K v = residue K r := fun r =>
    residue_eq_zero_iff.symm.trans residue_eq_iff_xor.symm
  refine ⟨red_lt hK v, (multiple_iff _).2 (residue_red v).symm, fun r q hr hq => ?unique, red_of_lt hK,
    (red_eq_zero_iff hK).2 residue_modulus, ?leading⟩
  case unique => exact ((red_eq_iff hK hr).2 ((multiple_iff r).1 ⟨q, hq⟩)).symm
  case leading => rw [red_eq_iff hK (tail_lt hK), FieldCtx.tail, residue_xor, residue_modulus, zero_add]

/-! ### Multiplication and squaring (R123, R124) -/

section
variable (hK : K.Sound)
include hK

/-- A product is a reduced value given by its class. -/
theorem fmul_eq_iff {c : Nat} (hc : c < 2 ^ K.m) : fmul K a b = c ↔ residue K a * residue K b = residue K c := by
  rw [fmul, red_eq_iff hK hc, residue_clmul]

theorem red_xor (a b : Nat) : red K (a ^^^ b) = red K a ^^^ red K b := by
  rw [red_eq_iff hK (Nat.xor_lt_two_pow (red_lt hK a) (red_lt hK b))]; simp

theorem fsqr_xor (a b : Nat) : fsqr K (a ^^^ b) = fsqr K a ^^^ fsqr K b := by
  have := residueRing_charTwo hK
  rw [← residue_inj hK (fsqr_lt hK _) (Nat.xor_lt_two_pow (fsqr_lt hK _) (fsqr_lt hK _))]
  simp only [residue_fsqr, residue_xor]
  exact CharTwo.add_sq _ _

theorem fsqr_zero : fsqr K 0 = 0 := by
  rw [fsqr, fmul_eq_iff hK (Nat.two_pow_pos _), residue_zero, mul_zero]

theorem fsqr_one : fsqr K 1 = 1 := by
  rw [fsqr, fmul_eq_iff hK (one_lt_two_pow_degree hK), residue_one, mul_one]

end

/-- Settles O40: each law is one of the residue ring. -/
theorem fmulIsRingMultiplication : Obligations.FmulIsRingMultiplication := by
  intro K a b c hK
  refine ⟨fmul_lt hK a b, ?residues, ?one, ?zero, ?comm, ?assoc, ?distrib, red_xor hK a b⟩
  case residues => rw [fmul_eq_iff hK (fmul_lt hK _ _)]; simp
  case one => rw [fmul_eq_iff hK (red_lt hK _)]; simp
  case zero => rw [fmul_eq_iff hK (Nat.two_pow_pos _)]; simp
  case comm => rw [fmul, fmul, clmul_comm]
  case assoc => rw [fmul_eq_iff hK (fmul_lt hK _ _)]; simp [mul_assoc]
  case distrib =>
    rw [fmul_eq_iff hK (Nat.xor_lt_two_pow (fmul_lt hK _ _) (fmul_lt hK _ _))]
    simp [mul_add]

end
end Sys2Proof.Machine

/-! Proofs. Inversion: Euclid's loop finds the inverse wherever there is one, and over an irreducible modulus the residue
ring is a field. -/

namespace Sys2Proof.Machine

section
open Polynomial

variable {K : FieldCtx} {a u v g h : Nat} {x : ResidueRing K}

/-! ### One step of Euclid's loop (R125) -/

theorem blen_shiftLeft (hv : v ≠ 0) (k : Nat) : blen (v <<< k) = blen v + k := by
  rw [blen_eq_size, blen_eq_size, Nat.size_shiftLeft hv]

/-- The longer operand gets shorter when the other, shifted to its length, is taken from it. -/
theorem blen_cut_lt (hv : v ≠ 0) (hle : blen v ≤ blen u) : blen (u ^^^ (v <<< (blen u - blen v))) < blen u := by
  have hpos := blen_of_ne_zero hv
  have hshift := blen_shiftLeft hv (blen u - blen v)
  have hlt := blen_xor_lt (u := u) (v := v <<< (blen u - blen v)) (n := blen u - 1) (by omega) (by omega)
  omega

/-- The coefficient `g` of an operand `u` of the loop: `g·a ≡ u`. -/
def CoefficientOf (x : ResidueRing K) (g u : Nat) : Prop := residue K g * x = residue K u

theorem CoefficientOf.cut (hu : CoefficientOf x g u) (hv : CoefficientOf x h v) (k : Nat) :
    CoefficientOf x (g ^^^ (h <<< k)) (u ^^^ (v <<< k)) := by
  unfold CoefficientOf at *
  rw [← clmul_two_pow, ← clmul_two_pow, residue_xor, residue_xor, residue_clmul, residue_clmul, ← hu, ← hv]
  ring

/-- Two operands without a common factor. -/
def CoprimeOperands (u v : Nat) : Prop := IsCoprime (toPoly u) (toPoly v)

theorem CoprimeOperands.symm (huv : CoprimeOperands u v) : CoprimeOperands v u := IsCoprime.symm huv

theorem CoprimeOperands.cut (huv : CoprimeOperands u v) (k : Nat) : CoprimeOperands (u ^^^ (v <<< k)) v := by
  unfold CoprimeOperands
  rw [toPoly_xor, toPoly_shiftLeft]
  exact IsCoprime.add_mul_left_left huv _

/-- When the one operand is gone, the other is the gcd 1. -/
theorem CoprimeOperands.eq_one (hv : CoprimeOperands 0 v) : v = 1 := by
  rw [CoprimeOperands, toPoly_zero, isCoprime_zero_left] at hv
  have hne : v ≠ 0 := fun h => hv.ne_zero (toPoly_eq_zero.2 h)
  exact toPoly_inj.1 (((toPoly_monic hne).eq_one_of_isUnit hv).trans toPoly_one.symm)

/-- The one operand is gone. -/
theorem invLoop_zero_left (n v g h : Nat) : invLoop (n + 1) 0 v g h = if v = 1 then some h else none := rfl

/-- The other operand is gone. -/
theorem invLoop_zero_right (hu : u ≠ 0) (n g h : Nat) :
    invLoop (n + 1) u 0 g h = if u = 1 then some g else none := by
  rw [invLoop, if_neg hu, if_pos rfl]

/-- A step that cuts the one operand. -/
theorem invLoop_cut_left (hu : u ≠ 0) (hv : v ≠ 0) (hle : blen v ≤ blen u) (n g h : Nat) :
    invLoop (n + 1) u v g h =
      invLoop n (u ^^^ (v <<< (blen u - blen v))) v (g ^^^ (h <<< (blen u - blen v))) h := by
  rw [invLoop, if_neg hu, if_neg hv, if_pos hle]

/-- A step that cuts the other operand. -/
theorem invLoop_cut_right (hu : u ≠ 0) (hv : v ≠ 0) (hlt : ¬ blen v ≤ blen u) (n g h : Nat) :
    invLoop (n + 1) u v g h =
      invLoop n u (v ^^^ (u <<< (blen v - blen u))) g (h ^^^ (g <<< (blen v - blen u))) := by
  rw [invLoop, if_neg hu, if_neg hv, if_neg hlt]

/-- Euclid's loop on operands without a common factor ends with an inverse: every step keeps the gcd and the
coefficients, and shortens an operand. -/
theorem invLoop_of_coprime {n : Nat} (hn : blen u + blen v < n) (huv : CoprimeOperands u v)
    (hg : CoefficientOf x g u) (hh : CoefficientOf x h v) :
    ∃ r, invLoop n u v g h = some r ∧ residue K r * x = 1 := by
  induction n generalizing u v g h with
  | zero => exact absurd hn (Nat.not_lt_zero _)
  | succ n ih =>
    rcases eq_or_ne u 0 with rfl | hu
    · obtain rfl := huv.eq_one
      exact ⟨h, invLoop_zero_left .., hh.trans residue_one⟩
    rcases eq_or_ne v 0 with rfl | hv
    · obtain rfl := huv.symm.eq_one
      exact ⟨g, invLoop_zero_right hu .., hg.trans residue_one⟩
    by_cases hle : blen v ≤ blen u
    · have hlt := blen_cut_lt hv hle
      rw [invLoop_cut_left hu hv hle]
      exact ih (by omega) (huv.cut _) (hg.cut hh _) hh
    · have hlt := blen_cut_lt hu (Nat.le_of_not_le hle)
      rw [invLoop_cut_right hu hv hle]
      exact ih (by omega) (huv.symm.cut _).symm hg (hh.cut hg _)

/-! ### The inverse (R125) -/

/-- A value with an inverse has no factor in common with the modulus. -/
theorem coprime_of_residue_mul_eq_one {r : Nat} (hr : residue K a * residue K r = 1) : CoprimeOperands a K.f := by
  have hzero : residue K (clmul a r ^^^ 1) = 0 := by
    rw [residue_xor, residue_clmul, hr, residue_one, residueRing_add_self]
  obtain ⟨q, hq⟩ := residue_eq_zero_iff.1 hzero
  have hpoly := congrArg toPoly hq
  rw [toPoly_xor, toPoly_clmul, toPoly_clmul, toPoly_one, CharTwo.add_eq_iff_eq_add] at hpoly
  refine ⟨toPoly r, toPoly q, ?_⟩
  rw [mul_comm, hpoly, add_right_comm, CharTwo.add_self_eq_zero, zero_add]

section
variable (hK : K.Sound)
include hK

theorem fmul_red_eq_one_iff {r : Nat} : fmul K (red K a) r = 1 ↔ residue K a * residue K r = 1 := by
  rw [fmul_eq_iff hK (one_lt_two_pow_degree hK), residue_red, residue_one]

/-- Where the operand has an inverse, inversion answers one. -/
theorem finv_of_invertible {r : Nat} (hr : residue K a * residue K r = 1) : ∃ r', finv K a = .ok r' := by
  have hfuel : blen (red K a) + blen K.f < 2 * K.m + 3 := by
    have hlen := blen_le_iff.2 (red_lt hK a)
    have hf := hK.2
    omega
  have hcop : CoprimeOperands (red K a) K.f := coprime_of_residue_mul_eq_one (r := r) (by rwa [residue_red])
  obtain ⟨g, hloop, hg⟩ := invLoop_of_coprime (x := residue K a) (g := 1) (h := 0) hfuel hcop
    (by simp [CoefficientOf]) (by simp [CoefficientOf])
  have hcheck : fmul K (red K a) (red K g) = 1 := by rw [fmul_red_eq_one_iff hK, residue_red, mul_comm, hg]
  exact ⟨red K g, by rw [finv, hloop]; exact if_pos hcheck⟩

/-- The inverse is unique, and inversion answers it (R125). -/
theorem finv_eq_ok_iff {r : Nat} : finv K a = .ok r ↔ r < 2 ^ K.m ∧ fmul K (red K a) r = 1 := by
  refine ⟨fun h => ⟨finv_lt hK h, (finv_sound h).1⟩, fun ⟨hlt, hr⟩ => ?_⟩
  rw [fmul_red_eq_one_iff hK] at hr
  obtain ⟨r', h'⟩ := finv_of_invertible hK hr
  have hr' := (fmul_red_eq_one_iff hK).1 (finv_sound h').1
  have hsame : residue K r' = residue K r := by
    rw [← mul_one (residue K r'), ← hr, mul_left_comm, ← mul_assoc, hr', one_mul]
  rw [h', (residue_inj hK (finv_lt hK h') hlt).1 hsame]

theorem finv_eq_error_iff : finv K a = .error .noInverse ↔ ¬∃ r < 2 ^ K.m, fmul K (red K a) r = 1 := by
  simp only [← finv_eq_ok_iff hK]
  cases hfinv : finv K a with
  | ok r => simp
  | error c => simp [finv_error hfinv]

end

/-! ### Over an irreducible modulus -/

/-- A modulus with no factor but 1 and itself is an irreducible polynomial (R349). -/
theorem irreducible_modulus (hK : K.Proper) : Irreducible (toPoly K.f) := by
  obtain ⟨hS, hirr⟩ := hK
  have hlen := hS.2
  have hpos : 0 < (toPoly K.f).natDegree := hS.natDegree_modulus ▸ Nat.lt_of_lt_of_le Nat.zero_lt_two hS.1
  refine irreducible_iff.2 ⟨not_isUnit_of_natDegree_pos _ hpos, fun p q hpq => ?_⟩
  obtain ⟨b, rfl⟩ := toPoly_surjective p
  obtain ⟨c, rfl⟩ := toPoly_surjective q
  have hf : clmul b c = K.f := toPoly_inj.1 ((toPoly_clmul b c).trans hpq.symm)
  obtain ⟨hb, hc⟩ := not_or.1 (mt clmul_eq_zero.2 (hf ▸ hS.modulus_ne_zero))
  have hsum := blen_clmul hb hc
  have hbpos := blen_of_ne_zero hb
  have hcpos := blen_of_ne_zero hc
  rw [hf] at hsum
  refine (hirr b (blen_le_iff.1 (by omega)) c (blen_le_iff.1 (by omega)) hf).imp ?_ ?_
  · rintro rfl; rw [toPoly_one]; exact isUnit_one
  · rintro rfl; rw [toPoly_one]; exact isUnit_one

/-- Over a proper field every value not congruent to 0 has an inverse. -/
theorem exists_inverse (hK : K.Proper) (h : red K a ≠ 0) : ∃ r < 2 ^ K.m, fmul K (red K a) r = 1 := by
  have := Fact.mk (irreducible_modulus hK)
  have hne : residue K a ≠ 0 := mt (red_eq_zero_iff hK.1).2 h
  obtain ⟨r, hlt, hr⟩ := residue_surjective hK.1 (residue K a)⁻¹
  exact ⟨r, hlt, (fmul_red_eq_one_iff hK.1).2 (by rw [hr, mul_inv_cancel₀ hne])⟩

/-- 0 has no inverse. -/
theorem fmul_zero_ne_one (hK : K.Sound) (r : Nat) : fmul K 0 r ≠ 1 := by
  have := residueRing_nontrivial hK
  rw [ne_eq, fmul_eq_iff hK (one_lt_two_pow_degree hK), residue_zero, zero_mul, residue_one]
  exact zero_ne_one

/-- Settles O41: Euclid's loop proposes the inverse wherever there is one. -/
theorem finvIsExact : Obligations.FinvIsExact := by
  intro K a hK
  refine ⟨fun r => finv_eq_ok_iff hK, finv_eq_error_iff hK, fun hirr => ?_⟩
  rw [finv_eq_error_iff hK]
  constructor
  · exact fun hnone => by_contra fun h => hnone (exists_inverse ⟨hK, hirr⟩ h)
  · rintro h ⟨r, -, hr⟩
    rw [h] at hr
    exact fmul_zero_ne_one hK r hr

end
end Sys2Proof.Machine

/-! Proofs. The trace and the solver: over any modulus the trace is linear, and over a proper field it is the trace of
the library, whose kernel is the image of `z² + z`. -/

namespace Sys2Proof.Machine

section

variable {K : FieldCtx} {a b : Nat}

/-! ### The trace is linear, over any modulus (R126) -/

section
variable (hK : K.Sound)
include hK

theorem traceLoop_lt (ha : a < 2 ^ K.m) {n v : Nat} (hv : v < 2 ^ K.m) : traceLoop K a n v < 2 ^ K.m := by
  induction n generalizing v with
  | zero => exact hv
  | succ n ih => exact ih (Nat.xor_lt_two_pow (fsqr_lt hK v) ha)

theorem traceLoop_xor (n u v : Nat) :
    traceLoop K (a ^^^ b) n (u ^^^ v) = traceLoop K a n u ^^^ traceLoop K b n v := by
  induction n generalizing u v with
  | zero => rfl
  | succ n ih =>
    have hswap : fsqr K u ^^^ fsqr K v ^^^ (a ^^^ b) = fsqr K u ^^^ a ^^^ (fsqr K v ^^^ b) := by
      rw [Nat.xor_assoc, Nat.xor_assoc, Nat.xor_left_comm (fsqr K v)]
    rw [traceLoop_succ, traceLoop_succ, traceLoop_succ, fsqr_xor hK, hswap, ih]

theorem ftrace_xor (a b : Nat) : ftrace K (a ^^^ b) = (ftrace K a + ftrace K b) % 2 := by
  rw [ftrace, red_xor hK, traceLoop_xor hK, Nat.xor_mod_two_eq, Nat.add_mod]
  rfl

/-- The sum for the operand 1 alternates between 0 and 1. -/
theorem traceLoop_one {n v : Nat} (hv : v < 2) : traceLoop K 1 n v = (n + v) % 2 := by
  induction n generalizing v with
  | zero => rw [traceLoop_zero]; omega
  | succ n ih =>
    rw [traceLoop_succ]
    obtain rfl | rfl : v = 0 ∨ v = 1 := by omega
    · rw [fsqr_zero hK, Nat.zero_xor, ih (by decide)]
    · rw [fsqr_one hK, Nat.xor_self, ih (by decide)]; omega

theorem ftrace_one : ftrace K 1 = K.m % 2 := by
  have hm := hK.1
  rw [ftrace, red_of_lt hK (one_lt_two_pow_degree hK), traceLoop_one hK (by decide)]
  omega

end

/-- Settles O42: squaring is linear modulo 2, and so is every step of the trace. -/
theorem traceIsLinear : Obligations.TraceIsLinear :=
  fun _ a b hK => ⟨ftrace_lt a, ftrace_xor hK a b, ftrace_one hK, fsqr_xor hK a b⟩

/-! ### The sums of R126 and R127 in the residue ring -/

section
variable (hK : K.Sound)
include hK

theorem residue_traceLoop (a n v : Nat) : residue K (traceLoop K a n v) =
    residue K v ^ 2 ^ n + ∑ i ∈ Finset.range n, residue K a ^ 2 ^ i := by
  have := residueRing_charTwo hK
  induction n generalizing v with
  | zero => simp
  | succ n ih =>
    rw [traceLoop_succ, ih, residue_xor, residue_fsqr, add_pow_char_pow, ← pow_mul, ← pow_succ',
      Finset.sum_range_succ]
    ring

theorem residue_htrLoop (a n z : Nat) : residue K (htrLoop K a n z) =
    residue K z ^ 4 ^ n + ∑ i ∈ Finset.range n, residue K a ^ 4 ^ i := by
  have := residueRing_charTwo hK
  induction n generalizing z with
  | zero => simp
  | succ n ih =>
    have hfour : 4 ^ n = 2 ^ (2 * n) := (pow_mul 2 2 n).symm
    rw [htrLoop_succ, ih, residue_xor, residue_fsqr, residue_fsqr, hfour, add_pow_char_pow, ← hfour, ← pow_mul,
      ← pow_mul, Finset.sum_range_succ, pow_succ' 4]
    ring

/-- A half-trace plus its square is the sum of all the powers (R127). -/
theorem sq_add_halfTrace (x : ResidueRing K) (n : Nat) :
    (∑ i ∈ Finset.range n, x ^ 4 ^ i) ^ 2 + ∑ i ∈ Finset.range n, x ^ 4 ^ i =
      ∑ j ∈ Finset.range (2 * n), x ^ 2 ^ j := by
  have := residueRing_charTwo hK
  induction n with
  | zero => simp
  | succ n ih =>
    have hfour : 4 ^ n = 2 ^ (2 * n) := (pow_mul 2 2 n).symm
    rw [Finset.sum_range_succ, CharTwo.add_sq, Nat.mul_succ, Finset.sum_range_succ _ (2 * n + 1),
      Finset.sum_range_succ _ (2 * n), ← ih, hfour, ← pow_mul, ← pow_succ]
    ring

end

/-! ### The kernel of the trace of a finite field of characteristic 2 -/

section
variable (L : Type) [Field L] [Algebra (ZMod 2) L]

/-- `z ↦ z² + z`, linear over GF(2). -/
noncomputable def artinSchreier : L →ₗ[ZMod 2] L := (FiniteField.frobeniusAlgHom (ZMod 2) L).toLinearMap + LinearMap.id

theorem artinSchreier_apply (z : L) : artinSchreier L z = z ^ 2 + z := by
  simp [artinSchreier]

theorem ker_artinSchreier : LinearMap.ker (artinSchreier L) = Submodule.span (ZMod 2) {1} := by
  ext z
  have hfactor : z ^ 2 + z = z * (z + 1) := by ring
  have := charP_of_injective_algebraMap (algebraMap (ZMod 2) L).injective 2
  have hbits : ∀ c : ZMod 2, c = 0 ∨ c = 1 := by decide
  rw [LinearMap.mem_ker, artinSchreier_apply, hfactor, mul_eq_zero, CharTwo.add_eq_zero,
    Submodule.mem_span_singleton]
  constructor
  · rintro (rfl | rfl)
    · exact ⟨0, zero_smul _ _⟩
    · exact ⟨1, one_smul _ _⟩
  · rintro ⟨c, rfl⟩
    exact (hbits c).imp (by rintro rfl; exact zero_smul _ _) (by rintro rfl; exact one_smul _ _)

variable [Finite L]

theorem trace_sq (z : L) : Algebra.trace (ZMod 2) L (z ^ 2) = Algebra.trace (ZMod 2) L z := by
  have h := Algebra.trace_eq_of_algEquiv (FiniteField.frobeniusAlgEquivOfAlgebraic (ZMod 2) L) z
  simpa using h

/-- The trace vanishes exactly on the values `z² + z`: both are subspaces of codimension 1. -/
theorem range_artinSchreier : LinearMap.range (artinSchreier L) = LinearMap.ker (Algebra.trace (ZMod 2) L) := by
  have hle : LinearMap.range (artinSchreier L) ≤ LinearMap.ker (Algebra.trace (ZMod 2) L) := by
    rintro _ ⟨z, rfl⟩
    rw [LinearMap.mem_ker, artinSchreier_apply, map_add, trace_sq, CharTwo.add_self_eq_zero]
  have hAS := (artinSchreier L).finrank_range_add_finrank_ker
  have hTr := (Algebra.trace (ZMod 2) L).finrank_range_add_finrank_ker
  rw [ker_artinSchreier, finrank_span_singleton one_ne_zero] at hAS
  rw [LinearMap.range_eq_top.2 (Algebra.trace_surjective (ZMod 2) L), finrank_top, Module.finrank_self] at hTr
  exact Submodule.eq_of_le_of_finrank_eq hle (by omega)

theorem trace_eq_zero_iff (x : L) : Algebra.trace (ZMod 2) L x = 0 ↔ ∃ z, z ^ 2 + z = x := by
  rw [← LinearMap.mem_ker, ← range_artinSchreier, LinearMap.mem_range]
  simp only [artinSchreier_apply]

end

/-! ### The trace and the solver over a proper field (R126 to R128) -/

/-- The trace of the residue ring over GF(2). -/
noncomputable def residueTrace (K : FieldCtx) (a : Nat) : ZMod 2 := Algebra.trace (ZMod 2) (ResidueRing K) (residue K a)

/-- An element of GF(2) is the class of its number. -/
theorem algebraMap_bit (t : ZMod 2) : algebraMap (ZMod 2) (ResidueRing K) t = residue K t.val := by
  have hbits : ∀ c : ZMod 2, c = 0 ∨ c = 1 := by decide
  obtain rfl | rfl := hbits t
  · rw [map_zero, ZMod.val_zero, residue_zero]
  · rw [map_one, ZMod.val_one, residue_one]

section
variable (hK : K.Proper)
include hK

theorem finrank_residueRing : Module.finrank (ZMod 2) (ResidueRing K) = K.m :=
  (finrank_quotient_span_eq_natDegree (f := toPoly K.f)).trans hK.1.natDegree_modulus

theorem residueRing_finite : Finite (ResidueRing K) :=
  have : Module.Finite (ZMod 2) (ResidueRing K) := (toPoly_monic hK.1.modulus_ne_zero).finite_adjoinRoot
  Module.finite_of_finite (ZMod 2)

theorem sum_pow_eq_trace (a : Nat) : ∑ i ∈ Finset.range K.m, residue K a ^ 2 ^ i =
    algebraMap (ZMod 2) (ResidueRing K) (residueTrace K a) := by
  have := Fact.mk (irreducible_modulus hK)
  have := residueRing_finite hK
  rw [residueTrace, FiniteField.algebraMap_trace_eq_sum_pow, finrank_residueRing hK, Nat.card_zmod]

/-- The engine's trace is the trace of the field over GF(2) (R126). -/
theorem ftrace_eq_residueTrace (a : Nat) : ftrace K a = (residueTrace K a).val := by
  obtain ⟨n, hn⟩ : ∃ n, K.m = n + 1 := ⟨K.m - 1, by have := hK.1.1; omega⟩
  have hval := (residueTrace K a).val_lt
  have hlt : (residueTrace K a).val < 2 ^ K.m := by have := one_lt_two_pow_degree hK.1; omega
  have hsum : residue K (traceLoop K (red K a) (K.m - 1) (red K a)) = residue K (residueTrace K a).val := by
    rw [residue_traceLoop hK.1, residue_red, hn, Nat.add_sub_cancel, add_comm, ← Finset.sum_range_succ, ← hn,
      sum_pow_eq_trace hK]
    exact algebraMap_bit _
  rw [ftrace, (residue_inj hK.1 (traceLoop_lt hK.1 (red_lt hK.1 a) (red_lt hK.1 a)) hlt).1 hsum, Nat.mod_eq_of_lt hval]

/-- The trace is 0 exactly where the quadratic has a root (R126). -/
theorem ftrace_eq_zero_iff (a : Nat) : ftrace K a = 0 ↔ ∃ z < 2 ^ K.m, fsqr K z ^^^ z = red K a := by
  have := Fact.mk (irreducible_modulus hK)
  have := residueRing_finite hK
  have hS := hK.1
  have root_iff : ∀ {z}, z < 2 ^ K.m →
      (fsqr K z ^^^ z = red K a ↔ residue K z ^ 2 + residue K z = residue K a) := fun hz => by
    rw [← residue_inj hS (Nat.xor_lt_two_pow (fsqr_lt hS _) hz) (red_lt hS a), residue_red, residue_xor, residue_fsqr]
  rw [ftrace_eq_residueTrace hK, ZMod.val_eq_zero, residueTrace, trace_eq_zero_iff]
  constructor
  · rintro ⟨x, hx⟩
    obtain ⟨z, hz, rfl⟩ := residue_surjective hS x
    exact ⟨z, hz, (root_iff hz).2 hx⟩
  · rintro ⟨z, hz, h⟩
    exact ⟨residue K z, (root_iff hz).1 h⟩

theorem fhtr_lt (a : Nat) : fhtr K a < 2 ^ K.m := htrLoop_lt hK.1 (red_lt hK.1 _) _ (red_lt hK.1 _)

/-- In a field of `2^m` elements the `m`-fold square of a value is the value. -/
theorem pow_two_pow_degree (x : ResidueRing K) : x ^ 2 ^ K.m = x := by
  have := Fact.mk (irreducible_modulus hK)
  have := residueRing_finite hK
  have := Fintype.ofFinite (ResidueRing K)
  have hcard : Nat.card (ResidueRing K) = 2 ^ K.m := by
    rw [Module.natCard_eq_pow_finrank (K := ZMod 2), Nat.card_zmod, finrank_residueRing hK]
  rw [← hcard, Nat.card_eq_fintype_card, FiniteField.pow_card]

/-- In odd degree the half-trace solves the quadratic for the operand plus its trace (R127). -/
theorem residue_fhtr (hodd : K.m % 2 = 1) (a : Nat) : residue K (fsqr K (fhtr K a) ^^^ fhtr K a) =
    algebraMap (ZMod 2) (ResidueRing K) (residueTrace K a) + residue K a := by
  have hterms : 2 * ((K.m - 1) / 2 + 1) = K.m + 1 := by omega
  have hsum : residue K (fhtr K a) = ∑ i ∈ Finset.range ((K.m - 1) / 2 + 1), residue K a ^ 4 ^ i := by
    rw [fhtr, residue_htrLoop hK.1, residue_red, add_comm, Finset.sum_range_succ]
  rw [residue_xor, residue_fsqr, hsum, sq_add_halfTrace hK.1, hterms, Finset.sum_range_succ, sum_pow_eq_trace hK,
    pow_two_pow_degree hK]

/-- In odd degree the half-trace is a root exactly where the trace is 0 (R128). -/
theorem fhtr_root_iff (hodd : K.m % 2 = 1) (a : Nat) :
    fsqr K (fhtr K a) ^^^ fhtr K a = red K a ↔ ftrace K a = 0 := by
  have := Fact.mk (irreducible_modulus hK)
  have hS := hK.1
  rw [← residue_inj hS (Nat.xor_lt_two_pow (fsqr_lt hS _) (fhtr_lt hK a)) (red_lt hS a), residue_red,
    residue_fhtr hK hodd, add_eq_right, map_eq_zero, ftrace_eq_residueTrace hK, ZMod.val_eq_zero]

end

theorem fhtr_red (hK : K.Sound) (a : Nat) : fhtr K (red K a) = fhtr K a := by
  rw [fhtr, fhtr, red_of_lt hK (red_lt hK a)]

/-- The solver finds no root exactly where, in odd degree, its half-trace is none (R128). -/
theorem fsolve_eq_noRoot_iff : fsolve K a = .error .noRoot ↔
    K.m % 2 = 1 ∧ fsqr K (fhtr K (red K a)) ^^^ fhtr K (red K a) ≠ red K a := by
  unfold fsolve
  split
  · next h => simp [h]
  · next h =>
    have hodd : K.m % 2 = 1 := by omega
    split <;> simp_all

/-- Settles O43: in odd degree the half-trace of an operand is a root exactly where the trace is 0. -/
theorem fsolveDecidesByTrace : Obligations.FsolveDecidesByTrace := by
  intro K a
  refine ⟨fun heven => if_pos heven, fun hK => ftrace_eq_zero_iff hK a, fun hK hodd => ?_⟩
  have root_iff := fhtr_root_iff hK hodd a
  have hlt : ftrace K a < 2 := ftrace_lt a
  constructor
  · rw [fsolve_eq_noRoot_iff, fhtr_red hK.1, ne_eq, root_iff]
    omega
  · intro h0
    exact ⟨fhtr K a, fhtr_lt hK a,
      fsolve_eq_ok.2 ⟨by omega, root_iff.2 h0, (fhtr_red hK.1 a).symm⟩, root_iff.2 h0⟩

end
end Sys2Proof.Machine

/-! Proofs. What the field commands write, and that they write nothing else: each command is its checks, which answer
the source registers, and then one write. -/

namespace Sys2Proof.Machine

section
variable {s t : State} {i : Instr} {ra rb rd : FReg} {imm : Nat}

/-! ### A command whose checks pass -/

theorem needRange_bind {p : Prop} [Decidable p] (hp : p) (k : Unit → Attempt) :
    (needRange (decide p) >>= k) = k () := by
  rw [needRange_eq_ok.2 (decide_eq_true hp), except_ok_bind]

/-- With a field active, a command is the rest of its work. -/
theorem exec_needField {k : Unit → Attempt} (hfv : s.fv = true) (hexec : exec i s = finish i s (s.needField >>= k)) :
    exec i s = finish i s (k ()) := by
  rw [hexec, needField_eq_ok.2 hfv, except_ok_bind]

/-- With its source valid, a command is the rest of its work on the source's contents. -/
theorem exec_fieldSource {k : FVal → Attempt} (hfv : s.fv = true) (ha : s.fval[ra] = true)
    (hexec : exec i s = finish i s (s.fieldSource ra >>= k)) : exec i s = finish i s (k s.f[ra]) := by
  rw [hexec, fieldSource_eq_ok.2 ⟨hfv, ha, rfl⟩, except_ok_bind]

/-- With both sources valid, a command is the rest of its work on their contents. -/
theorem exec_fieldSources {k : FVal × FVal → Attempt} (hfv : s.fv = true) (ha : s.fval[ra] = true)
    (hb : s.fval[rb] = true) (hexec : exec i s = finish i s (s.fieldSources ra rb >>= k)) :
    exec i s = finish i s (k (s.f[ra], s.f[rb])) := by
  rw [hexec, fieldSources_eq_ok.2 ⟨hfv, ha, hb, rfl⟩, except_ok_bind]

/-- The end of a command that writes a field register: the write and the count, nothing else. -/
theorem finish_writeF (v : FVal) : finish i s (.ok (s.writeF rd v)) =
    .next { s with f := s.f.set rd v, fval := s.fval.set rd true, cseq := s.cseq + 1 } := rfl

/-- The end of a command that writes `RES`: the write and the count, nothing else. -/
theorem finish_writeRes {v w : Word} (h : v = w) :
    finish i s (.ok (s.writeRes v)) = .next { s with res := w, cseq := s.cseq + 1 } := by rw [h]; rfl

theorem resOfBool_eq_ite {b : Bool} {p : Prop} [Decidable p] (h : b = true ↔ p) :
    resOfBool b = if p then 1 else 0 := by
  unfold resOfBool
  simp only [h]

/-! ### The value each command writes -/

/-- Settles O18: `FLOAD` and `FLDI` need the field only, `FMOV` and `FSTORE` their source too. -/
theorem dataMovementResults : Obligations.DataMovementResults := by
  intro s rd ra imm hfv
  refine ⟨?fload, ?fldi, fun ha => ⟨?fmov, ?fstore⟩⟩
  case fload => exact (exec_needField hfv rfl).trans (finish_writeF _)
  case fldi => exact (exec_needField hfv rfl).trans (finish_writeF _)
  case fmov => exact (exec_fieldSource hfv ha rfl).trans (finish_writeF _)
  case fstore => exact (exec_fieldSource hfv ha rfl).trans rfl

/-- `FSETB` of an index inside the field's words (R142). -/
theorem exec_fsetb (hfv : s.fv = true) (ha : s.fval[ra] = true) (himm : imm < 32 * s.fieldWords) :
    exec (.fsetb rd ra imm) s = .next { s with
      f := s.f.set rd (s.f[ra] ||| BitVec.ofNat 512 (2 ^ imm)), fval := s.fval.set rd true, cseq := s.cseq + 1 } := by
  rw [exec_fieldSource hfv ha rfl, needRange_bind himm]
  exact finish_writeF _

theorem exec_fclrb (hfv : s.fv = true) (ha : s.fval[ra] = true) :
    exec (.fclrb rd ra imm) s = .next { s with
      f := s.f.set rd (s.f[ra] &&& ~~~(BitVec.ofNat 512 (2 ^ imm))), fval := s.fval.set rd true,
      cseq := s.cseq + 1 } :=
  (exec_fieldSource hfv ha rfl).trans (finish_writeF _)

theorem exec_fshr (hfv : s.fv = true) (ha : s.fval[ra] = true) :
    exec (.fshr rd ra imm) s = .next { s with
      f := s.f.set rd (s.f[ra] >>> imm), fval := s.fval.set rd true, cseq := s.cseq + 1 } :=
  (exec_fieldSource hfv ha rfl).trans (finish_writeF _)

/-- Settles O20: one write of `F[rd]` after the checks. -/
theorem rawFieldResults : Obligations.RawFieldResults := by
  intro s rd ra rb imm hfv ha
  exact ⟨fun hb => (exec_fieldSources hfv ha hb rfl).trans (finish_writeF _), fun himm => exec_fsetb hfv ha himm,
    exec_fclrb hfv ha, exec_fshr hfv ha⟩

/-- `FINV` of a value that has an inverse (R138). -/
theorem exec_finv {r : Nat} (hfv : s.fv = true) (ha : s.fval[ra] = true)
    (hr : finv s.fieldCtx s.f[ra].toNat = .ok r) :
    exec (.finv rd ra) s = .next { s with
      f := s.f.set rd (BitVec.ofNat 512 r), fval := s.fval.set rd true, cseq := s.cseq + 1 } := by
  rw [exec_fieldSource hfv ha rfl, hr, except_ok_bind]
  exact finish_writeF _

/-- `FSOLVE` of a value for which the solver has a root (R140). -/
theorem exec_fsolve {z : Nat} (hfv : s.fv = true) (ha : s.fval[ra] = true)
    (hz : fsolve s.fieldCtx s.f[ra].toNat = .ok z) :
    exec (.fsolve rd ra) s = .next { s with
      f := s.f.set rd (BitVec.ofNat 512 z), fval := s.fval.set rd true, cseq := s.cseq + 1 } := by
  rw [exec_fieldSource hfv ha rfl, hz, except_ok_bind]
  exact finish_writeF _

/-- Settles O22: one write of `F[rd]` after the checks and, for two commands, a function that can fail. -/
theorem reducedFieldResults : Obligations.ReducedFieldResults := by
  intro s rd ra rb hfv ha
  refine ⟨fun hb => ?fmul, ?fsqr, ?fred, fun r hr => exec_finv hfv ha hr, fun z hz => exec_fsolve hfv ha hz⟩
  case fmul => exact (exec_fieldSources hfv ha hb rfl).trans (finish_writeF _)
  case fsqr => exact (exec_fieldSource hfv ha rfl).trans (finish_writeF _)
  case fred => exact (exec_fieldSource hfv ha rfl).trans (finish_writeF _)

/-- Settles O23: the inverse is what `finv` answers, in the sound context that an active field is. -/
theorem finvWritesTheInverse : Obligations.FinvWritesTheInverse :=
  fun _ _ _ _ hinv hfv ha hlt hr => exec_finv hfv ha ((finv_eq_ok_iff (hinv.fieldSound hfv)).2 ⟨hlt, hr⟩)

/-- Settles O24: one write of `RES` after the checks. -/
theorem fieldPredicateResults : Obligations.FieldPredicateResults := by
  refine ⟨fun s imm => rfl, fun s ra rb imm hfv ha =>
    ⟨?ftrace, ?ftstb, ?fblen, ?fisz, ?wsize, fun hb => ⟨?feq, ?fless⟩⟩⟩
  case ftrace => exact (exec_fieldSource hfv ha rfl).trans (finish_writeRes rfl)
  case ftstb =>
    have hbit : s.f[ra].getLsbD imm = true ↔ imm < 512 ∧ s.f[ra].getLsbD imm = true :=
      (and_iff_right_of_imp BitVec.lt_of_getLsbD).symm
    exact (exec_fieldSource hfv ha rfl).trans (finish_writeRes (resOfBool_eq_ite hbit))
  case fblen => exact (exec_fieldSource hfv ha rfl).trans (finish_writeRes rfl)
  case fisz => exact (exec_fieldSource hfv ha rfl).trans (finish_writeRes (resOfBool_eq_ite beq_iff_eq))
  case wsize => exact (exec_fieldSource hfv ha rfl).trans (finish_writeRes rfl)
  case feq => exact (exec_fieldSources hfv ha hb rfl).trans (finish_writeRes (resOfBool_eq_ite beq_iff_eq))
  case fless => exact (exec_fieldSources hfv ha hb rfl).trans (finish_writeRes (resOfBool_eq_ite decide_eq_true_iff))

/-! ### The bits of the value (R130, R142, R143, R145) -/

/-- A bit of the data buffer's value is that bit of the word that holds it, or 0 past the words taken (R130). -/
theorem testBit_dbufValue (d : Vector Word 16) (n : Nat) (j : Fin 16) (b : Fin 32) :
    (dbufValue d n).testBit (32 * j.val + b.val) = (decide (j.val < n) && d[j].getLsbD b.val) := by
  have hb := b.isLt
  induction n with
  | zero => simp [dbufValue]
  | succ n ih =>
    rw [dbufValue, Nat.shiftLeft_eq, Nat.mul_comm, Nat.add_comm, Nat.testBit_two_pow_mul_add _ (dbufValue_lt d n)]
    rcases Nat.lt_trichotomy j.val n with hlt | heq | hgt
    · rw [if_pos (by omega), ih, decide_eq_true hlt, decide_eq_true (Nat.lt_succ_of_lt hlt)]
    · have hword : d.toList.getD n 0 = d[j] := by subst heq; simp
      have hoff : 32 * j.val + b.val - 32 * n = b.val := by omega
      rw [if_neg (by omega), hword, hoff, decide_eq_true (by omega), Bool.true_and]
      rfl
    · have hhigh : (d.toList.getD n 0).toNat < 2 ^ (32 * j.val + b.val - 32 * n) :=
        (d.toList.getD n 0).isLt.trans_le (Nat.pow_le_pow_right (by decide) (by omega))
      rw [if_neg (by omega), Nat.testBit_lt_two_pow hhigh, decide_eq_false (by omega), Bool.false_and]

/-- The only bit of `2^i` is bit `i`. -/
theorem getLsbD_ofNat_two_pow {n : Nat} (hn : n < 512) (i : Nat) :
    (BitVec.ofNat 512 (2 ^ i)).getLsbD n = decide (n = i) := by
  rw [BitVec.getLsbD_ofNat, Nat.testBit_two_pow, decide_eq_true hn, Bool.true_and, decide_eq_decide]
  exact eq_comm

/-- What a command leaves in the field register it writes. -/
theorem dest_eq_of_exec {v : FVal} (h : exec i s = .next t)
    (hexec : exec i s = .next { s with f := s.f.set rd v, fval := s.fval.set rd true, cseq := s.cseq + 1 }) :
    t.f[rd] = v := by
  cases h.symm.trans hexec
  exact (set_getElem_fin s.f rd rd v).trans (if_pos rfl)

/-- Settles O21: the bits of the values that O18 and O20 name. -/
theorem bitPrimitivesAreExact : Obligations.BitPrimitivesAreExact := by
  intro s t rd ra imm hfv ha
  refine ⟨fun h j b => ?fload, fun _ himm h n hn => ?fsetb, fun h n hn => ?fclrb, fun h => ?fshr⟩
  case fload =>
    obtain ⟨hexec, -⟩ := dataMovementResults s rd ra imm hfv
    have hj := j.isLt
    have hb := b.isLt
    rw [dest_eq_of_exec h hexec, BitVec.getLsbD_ofNat, testBit_dbufValue, decide_eq_true (by omega), Bool.true_and]
  case fsetb =>
    rw [dest_eq_of_exec h (exec_fsetb hfv ha himm), BitVec.getLsbD_or, getLsbD_ofNat_two_pow hn, Bool.or_comm]
  case fclrb =>
    rw [dest_eq_of_exec h (exec_fclrb hfv ha), BitVec.getLsbD_and, BitVec.getLsbD_not, getLsbD_ofNat_two_pow hn,
      decide_eq_true hn, Bool.true_and, Bool.and_comm]
  case fshr =>
    rw [dest_eq_of_exec h (exec_fshr hfv ha)]
    exact ⟨by rw [BitVec.toNat_ushiftRight, Nat.shiftRight_eq_div_pow], BitVec.ushiftRight_eq_zero⟩

end
end Sys2Proof.Machine

/-! Proofs. The faults of a computation: which faults each arithmetic function can raise, which commands call one that
can fail, and when each of those faults. -/

namespace Sys2Proof.Machine

section
variable {s : State} {i : Instr} {c : FaultCode}

/-! ### The faults a part of a command can raise -/

/-- Every fault the computation raises is one of these. -/
def RaisesOnly {α : Type} (F : FaultCode → Prop) (x : Except FaultCode α) : Prop := ∀ c, x = .error c → F c

section
variable {α β : Type} {F : FaultCode → Prop} {x : Except FaultCode α} {k : α → Except FaultCode β}

theorem raisesOnly_ok (a : α) : RaisesOnly F (.ok a) := nofun

theorem RaisesOnly.bind (hx : RaisesOnly F x) (hk : ∀ a, RaisesOnly F (k a)) : RaisesOnly F (x >>= k) := fun c h => by
  obtain h | ⟨a, -, h⟩ := except_bind_eq_error.1 h
  · exact hx c h
  · exact hk a c h

end

/-! ### The functions of R171 to R219 raise `NoInverse` only (R308) -/

/-- The computation fails only for want of an inverse. -/
abbrev OnlyNoInverse {α : Type} (x : Except FaultCode α) : Prop := RaisesOnly (· = .noInverse) x

section
variable {K : FieldCtx} {C : CurveCtx} {P Q D : Point} {T N : List Point} {w k e : Nat}

theorem finv_onlyNoInverse (a : Nat) : OnlyNoInverse (finv K a) := fun _ h => finv_error h

theorem padd_onlyNoInverse : OnlyNoInverse (padd C P Q) := by
  rcases padd_cases (C := C) (P := P) (Q := Q) with
    ⟨-, h⟩ | ⟨-, -, h⟩ | ⟨-, -, -, h⟩ | ⟨-, -, -, -, h⟩ | ⟨-, -, -, -, h⟩ <;> rw [h]
  · exact raisesOnly_ok _
  · exact raisesOnly_ok _
  · exact (finv_onlyNoInverse _).bind fun _ => raisesOnly_ok _
  · exact raisesOnly_ok _
  · exact (finv_onlyNoInverse _).bind fun _ => raisesOnly_ok _

theorem ptwp_onlyNoInverse : OnlyNoInverse (ptwp C P Q) := padd_onlyNoInverse.bind fun _ => padd_onlyNoInverse

theorem ptp2_onlyNoInverse : OnlyNoInverse (ptp2 C P e) := by
  induction e generalizing P with
  | zero => exact raisesOnly_ok _
  | succ e ih => exact padd_onlyNoInverse.bind fun _ => ih

theorem pcompress_onlyNoInverse : OnlyNoInverse (pcompress C P) := by
  unfold pcompress
  split
  · exact raisesOnly_ok _
  · exact (finv_onlyNoInverse _).bind fun _ => raisesOnly_ok _

theorem oddMultiples_onlyNoInverse (n : Nat) : OnlyNoInverse (oddMultiples C D n P) := by
  induction n generalizing P with
  | zero => exact raisesOnly_ok _
  | succ n ih => exact padd_onlyNoInverse.bind fun _ => ih.bind fun _ => raisesOnly_ok _

theorem precompute_onlyNoInverse : OnlyNoInverse (precompute C P w) := by
  have hpos : OnlyNoInverse (precomputePos C P w) := by
    unfold precomputePos
    split
    · exact raisesOnly_ok _
    · exact padd_onlyNoInverse.bind fun _ => (oddMultiples_onlyNoInverse _).bind fun _ => raisesOnly_ok _
  exact hpos.bind fun _ => raisesOnly_ok _

theorem topDigit_onlyNoInverse (d : Word) : OnlyNoInverse (topDigit C T N w d) := by
  unfold topDigit
  simp only
  split
  · exact padd_onlyNoInverse.bind fun _ => raisesOnly_ok _
  · exact raisesOnly_ok _

theorem scanDigits_onlyNoInverse (es : List Word) : OnlyNoInverse (scanDigits C T N es P) := by
  induction es generalizing P with
  | nil => exact raisesOnly_ok _
  | cons d es ih => exact (ptwp_onlyNoInverse.bind fun _ => ptp2_onlyNoInverse).bind fun _ => ih

theorem scan_onlyNoInverse (es : List Word) : OnlyNoInverse (scan C T N w es) := by
  match es with
  | [] => exact scanDigits_onlyNoInverse _
  | [_] => exact scanDigits_onlyNoInverse _
  | _ :: _ :: _ =>
    exact (topDigit_onlyNoInverse _).bind fun _ => ptp2_onlyNoInverse.bind fun _ => scanDigits_onlyNoInverse _

theorem mulpos_onlyNoInverse : OnlyNoInverse (mulpos C P k) :=
  precompute_onlyNoInverse.bind fun _ => (scan_onlyNoInverse _).bind fun _ => raisesOnly_ok _

/-! ### The solver and the expansion (R128, R177) -/

theorem fsolve_eq_unsupported_iff {a : Nat} : fsolve K a = .error .unsupported ↔ K.m % 2 = 0 := by
  refine ⟨fun h => ?_, fun h => if_pos h⟩
  obtain ⟨heven, -⟩ | ⟨-, ⟨⟩⟩ := fsolve_error h
  exact heven

theorem fsolve_ne_noInverse {a : Nat} : fsolve K a ≠ .error .noInverse := fun h => by
  obtain ⟨-, ⟨⟩⟩ | ⟨-, ⟨⟩⟩ := fsolve_error h

/-- The value whose root `pexpand` asks for, given the abscissa and its inverse (R177). -/
def expandOperand (C : CurveCtx) (x xi : Nat) : Nat := x ^^^ C.a ^^^ fmul C.fld C.b (fsqr C.fld xi)

/-- The expansion of a value not congruent to 0 fails at the inversion of the abscissa, or in the solver (R177). -/
theorem pexpand_eq_error_iff {v : Nat} : pexpand C v = .error c ↔ red C.fld v ≠ 0 ∧
    (finv C.fld (expandX C (red C.fld v)) = .error c ∨
      ∃ xi, finv C.fld (expandX C (red C.fld v)) = .ok xi ∧
        fsolve C.fld (expandOperand C (expandX C (red C.fld v)) xi) = .error c) := by
  unfold pexpand
  split
  · next h => simp [h]
  · next h => simp [h, pexpandReduced, except_bind_eq_error, expandOperand]

end

/-! ### The checks of a command raise none of these faults -/

/-- The fault is one a computation raises, not a check of a command (R125, R128). -/
def FaultCode.computed : FaultCode → Bool
  | .noInverse => true
  | .unsupported => true
  | .noRoot => true
  | _ => false

/-- The computation is a check: it raises no fault of a computation. -/
abbrev IsCheck {α : Type} (x : Except FaultCode α) : Prop := RaisesOnly (fun c => c.computed = false) x

theorem needField_isCheck : IsCheck s.needField := fun _ h => by rw [(needField_eq_error.1 h).2]; rfl

theorem needCurve_isCheck : IsCheck s.needCurve := fun _ h => by
  obtain ⟨-, rfl⟩ | ⟨-, -, rfl⟩ := needCurve_eq_error.1 h <;> rfl

theorem needTable_isCheck : IsCheck s.needTable := fun _ h => by rw [(needTable_eq_error.1 h).2]; rfl

theorem needRange_isCheck {b : Bool} : IsCheck (needRange b) := fun _ h => by rw [(needRange_eq_error.1 h).2]; rfl

theorem readF_isCheck (k : FReg) : IsCheck (s.readF k) := fun _ h => by rw [(readF_eq_error.1 h).2]; rfl

theorem readP_isCheck (k : PReg) : IsCheck (s.readP k) := fun _ h => by rw [(readP_eq_error.1 h).2]; rfl

theorem fieldSource_isCheck (ra : FReg) : IsCheck (s.fieldSource ra) :=
  needField_isCheck.bind fun _ => readF_isCheck ra

theorem fieldSources_isCheck (ra rb : FReg) : IsCheck (s.fieldSources ra rb) :=
  needField_isCheck.bind fun _ => (readF_isCheck ra).bind fun _ => (readF_isCheck rb).bind fun _ => raisesOnly_ok _

theorem pointSource_isCheck (ra : PReg) : IsCheck (s.pointSource ra) :=
  needCurve_isCheck.bind fun _ => readP_isCheck ra

theorem pointSources_isCheck (ra rb : PReg) : IsCheck (s.pointSources ra rb) :=
  needCurve_isCheck.bind fun _ => (readP_isCheck ra).bind fun _ => (readP_isCheck rb).bind fun _ => raisesOnly_ok _

theorem curveFieldSource_isCheck (ra : FReg) : IsCheck (s.curveFieldSource ra) :=
  needCurve_isCheck.bind fun _ => readF_isCheck ra

theorem curveFieldSources_isCheck (ra rb : FReg) : IsCheck (s.curveFieldSources ra rb) :=
  needCurve_isCheck.bind fun _ => (readF_isCheck ra).bind fun _ => (readF_isCheck rb).bind fun _ => raisesOnly_ok _

theorem scalarSources_isCheck (ra : PReg) (rb : FReg) : IsCheck (s.scalarSources ra rb) :=
  needCurve_isCheck.bind fun _ => (readP_isCheck ra).bind fun _ => (readF_isCheck rb).bind fun _ => raisesOnly_ok _

/-! ### The operands of `PMUL` -/

/-- The operand of `PMUL` as a point: the register's, or its negative (R192). -/
theorem signedPoint_val (neg : Bool) (P : PointReg) :
    (signedPoint neg P).val = if neg then pneg P.val else P.val := by
  cases neg with
  | false => rfl
  | true =>
    have hx := P.x.isLt
    have hy : P.x.toNat ^^^ P.y.toNat < 2 ^ 512 := Nat.xor_lt_two_pow hx P.y.isLt
    exact congrArg₂ Point.mk (toNat_ofNat_of_lt hx) (toNat_ofNat_of_lt hy)

theorem scalar_ne_zero_iff {k : FVal} : k ≠ 0 ↔ ¬ k.toNat = 0 :=
  not_congr ⟨fun h => h ▸ BitVec.toNat_zero, fun h => BitVec.eq_of_toNat_eq (h.trans BitVec.toNat_zero.symm)⟩

/-! ### When the work of a command raises a fault -/

/-- The work of a command counts no command itself, and raises the fault exactly when `p` holds. -/
structure RaisesIff (s : State) (c : FaultCode) (p : Prop) (r : Attempt) : Prop where
  uncounted : ∀ u, r = .ok u → u.cseq = s.cseq
  raises : r = .error c ↔ p

/-- A command faults when its work raises the fault. -/
theorem faults_iff {p : Prop} {r : Attempt} (hexec : exec i s = finish i s r) (h : RaisesIff s c p r) :
    s.Faults i c ↔ p :=
  (faults_iff_of_finish hexec h.uncounted).trans h.raises

theorem not_faults {r : Attempt} (hexec : exec i s = finish i s r) (h : RaisesIff s c False r) : ¬ s.Faults i c :=
  (faults_iff hexec h).1

theorem raisesIff_ok {u : State} (hu : u.cseq = s.cseq) : RaisesIff s c False (.ok u) :=
  ⟨fun _ h => by cases h; exact hu, iff_of_false nofun id⟩

/-- A computation whose answer is written and nothing else. -/
theorem raisesIff_compute {β : Type} (y : Except FaultCode β) {g : β → State} (hg : ∀ b, (g b).cseq = s.cseq) :
    RaisesIff s c (y = .error c) (y >>= fun b => .ok (g b)) := by
  cases y with
  | ok b => exact ⟨fun _ h => by cases h; exact hg b, by simp⟩
  | error d => exact ⟨fun _ h => (nomatch h), by simp⟩

/-- The scan of `PMUL`, left out for the scalar 0 (R192). -/
theorem raisesIff_unless {d p : Prop} [Decidable d] {r r' : Attempt} (hr : RaisesIff s c False r)
    (hr' : RaisesIff s c p r') : RaisesIff s c (¬d ∧ p) (if d then r else r') := by
  by_cases h : d
  · rw [if_pos h]; simpa [h] using hr
  · rw [if_neg h]; simpa [h] using hr'

section
variable {α : Type} {x : Except FaultCode α} {k : α → Attempt} {p q : Prop} (hx : IsCheck x)
  (hc : c.computed = true)
include hx hc

theorem IsCheck.ne_error : x ≠ .error c := fun h => by
  have := hx c h
  simp_all

/-- After a check that answers `a` exactly when `q` holds, the rest of the work on `a` decides. -/
theorem IsCheck.raisesIff {a : α} (hok : ∀ v, x = .ok v ↔ q ∧ v = a) (hk : q → RaisesIff s c p (k a)) :
    RaisesIff s c (q ∧ p) (x >>= k) where
  uncounted u h := by
    obtain ⟨v, hv, hu⟩ := except_bind_eq_ok.1 h
    obtain ⟨hq, rfl⟩ := (hok v).1 hv
    exact (hk hq).uncounted u hu
  raises := by
    simp only [except_bind_eq_error, hx.ne_error hc, false_or, hok]
    constructor
    · rintro ⟨v, ⟨hq, rfl⟩, h⟩; exact ⟨hq, (hk hq).raises.1 h⟩
    · rintro ⟨hq, hp⟩; exact ⟨a, ⟨hq, rfl⟩, (hk hq).raises.2 hp⟩

/-- Checks alone raise no fault of a computation. -/
theorem IsCheck.raisesNone (hk : ∀ a, RaisesIff s c False (k a)) : RaisesIff s c False (x >>= k) where
  uncounted u h := by
    obtain ⟨v, -, hu⟩ := except_bind_eq_ok.1 h
    exact (hk v).uncounted u hu
  raises := iff_false_intro fun h => by
    obtain h | ⟨v, -, h⟩ := except_bind_eq_error.1 h
    · exact hx.ne_error hc h
    · exact (hk v).raises.1 h

end

/-! ### The commands that call no function that can fail -/

/-- The command calls an inversion or the solver. -/
def computes : Instr → Bool
  | .finv .. => true
  | .fsolve .. => true
  | .padd .. => true
  | .pdbl .. => true
  | .pcmp .. => true
  | .pexp .. => true
  | .pmul .. => true
  | .precomp .. => true
  | .mulpos .. => true
  | .ptwp .. => true
  | .ptp2 .. => true
  | _ => false

section
variable (hc : c.computed = true)
include hc

theorem raisesIff_error {d : FaultCode} (hd : d.computed = false) : RaisesIff s c False (.error d) :=
  ⟨fun _ h => (nomatch h), iff_false_intro fun h => by cases h; simp_all⟩

theorem setfield_not_faults : ¬ s.Faults .setfield c := by
  refine not_faults rfl ?_
  split
  · exact raisesIff_ok rfl
  · exact raisesIff_error hc rfl

theorem setcurve_not_faults (ra rb : FReg) : ¬ s.Faults (.setcurve ra rb) c := by
  refine not_faults rfl ((fieldSources_isCheck ra rb).raisesNone hc fun v => ?_)
  simp only
  split
  · exact raisesIff_error hc rfl
  · exact raisesIff_ok rfl

/-- A command that calls none is checks and writes. -/
theorem not_faults_of_not_computes (hi : computes i = false) : ¬ s.Faults i c := by
  cases i
  case nop | wsizei => exact not_faults rfl (raisesIff_ok (by simp))
  case setfield => exact setfield_not_faults hc
  case setcurve => exact setcurve_not_faults hc _ _
  case fload | fldi => exact not_faults rfl (needField_isCheck.raisesNone hc fun _ => raisesIff_ok (by simp))
  case fstore | fmov | fsqr | fred | ftrace | ftstb | fclrb | fblen | fshr | fisz | wsize =>
    exact not_faults rfl ((fieldSource_isCheck _).raisesNone hc fun _ => raisesIff_ok (by simp))
  case fadd | fmul | feq | fless =>
    exact not_faults rfl ((fieldSources_isCheck _ _).raisesNone hc fun _ => raisesIff_ok (by simp))
  case fsetb | wnaf =>
    exact not_faults rfl ((fieldSource_isCheck _).raisesNone hc fun _ =>
      needRange_isCheck.raisesNone hc fun _ => raisesIff_ok (by simp))
  case pset => exact not_faults rfl ((curveFieldSources_isCheck _ _).raisesNone hc fun _ => raisesIff_ok (by simp))
  case pgetx | pgety | pmov | pneg | pisid | pchk =>
    exact not_faults rfl ((pointSource_isCheck _).raisesNone hc fun _ => raisesIff_ok (by simp))
  case peq => exact not_faults rfl ((pointSources_isCheck _ _).raisesNone hc fun _ => raisesIff_ok (by simp))
  case tblrd =>
    exact not_faults rfl (needCurve_isCheck.raisesNone hc fun _ => needTable_isCheck.raisesNone hc fun _ =>
      needRange_isCheck.raisesNone hc fun _ => raisesIff_ok (by simp))
  all_goals cases hi

/-! ### When a command that calls one faults -/

/-- The work that follows one field source. -/
theorem fieldSource_faults_iff {ra : FReg} {k : FVal → Attempt} {p : Prop}
    (hexec : exec i s = finish i s (s.fieldSource ra >>= k)) (hk : RaisesIff s c p (k s.f[ra])) :
    s.Faults i c ↔ s.fv = true ∧ s.fval[ra] = true ∧ p := by
  rw [← and_assoc]
  exact faults_iff hexec ((fieldSource_isCheck ra).raisesIff hc (fun _ => by rw [fieldSource_eq_ok, and_assoc])
    fun _ => hk)

theorem finv_faults_iff {rd ra : FReg} : s.Faults (.finv rd ra) c ↔
    s.fv = true ∧ s.fval[ra] = true ∧ finv s.fieldCtx s.f[ra].toNat = .error c :=
  fieldSource_faults_iff hc rfl (raisesIff_compute _ fun _ => by rfl)

theorem fsolve_faults_iff {rd ra : FReg} : s.Faults (.fsolve rd ra) c ↔
    s.fv = true ∧ s.fval[ra] = true ∧ fsolve s.fieldCtx s.f[ra].toNat = .error c :=
  fieldSource_faults_iff hc rfl (raisesIff_compute _ fun _ => by rfl)

theorem pexp_faults_iff {rd : PReg} {ra : FReg} : s.Faults (.pexp rd ra) c ↔
    s.fv = true ∧ s.cv = true ∧ s.fval[ra] = true ∧ pexpand s.curveCtx s.f[ra].toNat = .error c := by
  rw [← and_assoc, ← and_assoc]
  exact faults_iff rfl ((curveFieldSource_isCheck ra).raisesIff hc
    (fun _ => by simp only [curveFieldSource_eq_ok, and_assoc]) fun _ => raisesIff_compute _ fun _ => by rfl)

/-- The work that follows one point source. -/
theorem pointSource_faults_iff {ra : PReg} {k : PointReg → Attempt} {p : Prop}
    (hexec : exec i s = finish i s (s.pointSource ra >>= k)) (hk : RaisesIff s c p (k s.p[ra])) :
    s.Faults i c ↔ s.fv = true ∧ s.cv = true ∧ s.pval[ra] = true ∧ p := by
  rw [← and_assoc, ← and_assoc]
  exact faults_iff hexec ((pointSource_isCheck ra).raisesIff hc (fun _ => by simp only [pointSource_eq_ok, and_assoc])
    fun _ => hk)

theorem pcmp_faults_iff {rd : FReg} {ra : PReg} : s.Faults (.pcmp rd ra) c ↔
    s.fv = true ∧ s.cv = true ∧ s.pval[ra] = true ∧ pcompress s.curveCtx s.p[ra].val = .error c :=
  pointSource_faults_iff hc rfl (raisesIff_compute _ fun _ => by rfl)

theorem pdbl_faults_iff {rd ra : PReg} : s.Faults (.pdbl rd ra) c ↔
    s.fv = true ∧ s.cv = true ∧ s.pval[ra] = true ∧ padd s.curveCtx s.p[ra].val s.p[ra].val = .error c :=
  pointSource_faults_iff hc rfl (raisesIff_compute _ fun _ => by rfl)

theorem ptp2_faults_iff {rd ra : PReg} {imm : Nat} : s.Faults (.ptp2 rd ra imm) c ↔
    s.fv = true ∧ s.cv = true ∧ s.pval[ra] = true ∧ ptp2 s.curveCtx s.p[ra].val imm = .error c :=
  pointSource_faults_iff hc rfl (raisesIff_compute _ fun _ => by rfl)

theorem precomp_faults_iff {ra : PReg} {w : Nat} : s.Faults (.precomp ra w) c ↔
    s.fv = true ∧ s.cv = true ∧ s.pval[ra] = true ∧ (2 ≤ w ∧ w ≤ 8) ∧
      precompute s.curveCtx s.p[ra].val w = .error c :=
  pointSource_faults_iff hc rfl (needRange_isCheck.raisesIff hc (a := ())
    (fun _ => by rw [needRange_eq_ok, decide_eq_true_iff]; exact (and_iff_left rfl).symm) fun _ =>
      raisesIff_compute _ fun _ => by rfl)

/-- The work that follows two point sources. -/
theorem pointSources_faults_iff {ra rb : PReg} {k : PointReg × PointReg → Attempt} {p : Prop}
    (hexec : exec i s = finish i s (s.pointSources ra rb >>= k)) (hk : RaisesIff s c p (k (s.p[ra], s.p[rb]))) :
    s.Faults i c ↔ s.fv = true ∧ s.cv = true ∧ s.pval[ra] = true ∧ s.pval[rb] = true ∧ p := by
  rw [← and_assoc, ← and_assoc, ← and_assoc]
  exact faults_iff hexec ((pointSources_isCheck ra rb).raisesIff hc
    (fun _ => by simp only [pointSources_eq_ok, and_assoc]) fun _ => hk)

theorem padd_faults_iff {rd ra rb : PReg} : s.Faults (.padd rd ra rb) c ↔
    s.fv = true ∧ s.cv = true ∧ s.pval[ra] = true ∧ s.pval[rb] = true ∧
      padd s.curveCtx s.p[ra].val s.p[rb].val = .error c :=
  pointSources_faults_iff hc rfl (raisesIff_compute _ fun _ => by rfl)

theorem ptwp_faults_iff {rd ra rb : PReg} : s.Faults (.ptwp rd ra rb) c ↔
    s.fv = true ∧ s.cv = true ∧ s.pval[ra] = true ∧ s.pval[rb] = true ∧
      ptwp s.curveCtx s.p[ra].val s.p[rb].val = .error c :=
  pointSources_faults_iff hc rfl (raisesIff_compute _ fun _ => by rfl)

/-- The work that follows a point and a scalar source. -/
theorem scalarSources_faults_iff {ra : PReg} {rb : FReg} {k : PointReg × FVal → Attempt} {p : Prop}
    (hexec : exec i s = finish i s (s.scalarSources ra rb >>= k)) (hk : RaisesIff s c p (k (s.p[ra], s.f[rb]))) :
    s.Faults i c ↔ s.fv = true ∧ s.cv = true ∧ s.pval[ra] = true ∧ s.fval[rb] = true ∧ p := by
  rw [← and_assoc, ← and_assoc, ← and_assoc]
  exact faults_iff hexec ((scalarSources_isCheck ra rb).raisesIff hc
    (fun _ => by simp only [scalarSources_eq_ok, and_assoc]) fun _ => hk)

theorem mulpos_faults_iff {rd ra : PReg} {rb : FReg} : s.Faults (.mulpos rd ra rb) c ↔
    s.fv = true ∧ s.cv = true ∧ s.pval[ra] = true ∧ s.fval[rb] = true ∧
      mulpos s.curveCtx s.p[ra].val s.f[rb].toNat = .error c :=
  scalarSources_faults_iff hc rfl (raisesIff_compute _ fun _ => by rfl)

theorem pmul_faults_iff {rd ra : PReg} {rb : FReg} {neg : Bool} : s.Faults (.pmul rd ra rb neg) c ↔
    s.fv = true ∧ s.cv = true ∧ s.pval[ra] = true ∧ s.fval[rb] = true ∧ s.f[rb] ≠ 0 ∧
      mulpos s.curveCtx (if neg then pneg s.p[ra].val else s.p[ra].val) s.f[rb].toNat = .error c := by
  rw [scalar_ne_zero_iff, ← signedPoint_val]
  exact scalarSources_faults_iff hc rfl
    (raisesIff_unless (raisesIff_ok (by rfl)) (raisesIff_compute _ fun _ => by rfl))

/-- The command calls the solver. -/
def callsSolver : Instr → Bool
  | .fsolve .. => true
  | .pexp .. => true
  | _ => false

/-- A command that does not call the solver fails only for want of an inverse. -/
theorem eq_noInverse_of_faults (hi : callsSolver i = false) (h : s.Faults i c) : c = .noInverse := by
  cases i with
  | finv =>
    obtain ⟨-, -, h⟩ := (finv_faults_iff hc).1 h
    exact finv_error h
  | pcmp =>
    obtain ⟨-, -, -, h⟩ := (pcmp_faults_iff hc).1 h
    exact pcompress_onlyNoInverse _ h
  | padd =>
    obtain ⟨-, -, -, -, h⟩ := (padd_faults_iff hc).1 h
    exact padd_onlyNoInverse _ h
  | pdbl =>
    obtain ⟨-, -, -, h⟩ := (pdbl_faults_iff hc).1 h
    exact padd_onlyNoInverse _ h
  | ptwp =>
    obtain ⟨-, -, -, -, h⟩ := (ptwp_faults_iff hc).1 h
    exact ptwp_onlyNoInverse _ h
  | ptp2 =>
    obtain ⟨-, -, -, h⟩ := (ptp2_faults_iff hc).1 h
    exact ptp2_onlyNoInverse _ h
  | precomp =>
    obtain ⟨-, -, -, -, h⟩ := (precomp_faults_iff hc).1 h
    exact precompute_onlyNoInverse _ h
  | mulpos =>
    obtain ⟨-, -, -, -, h⟩ := (mulpos_faults_iff hc).1 h
    exact mulpos_onlyNoInverse _ h
  | pmul =>
    obtain ⟨-, -, -, -, -, h⟩ := (pmul_faults_iff hc).1 h
    exact mulpos_onlyNoInverse _ h
  | fsolve | pexp => cases hi
  | _ => exact absurd h (not_faults_of_not_computes hc rfl)

/-- The faults of the solver come from the two commands that call it (R309, R311). -/
theorem solver_faults_iff (hne : c ≠ .noInverse) : s.Faults i c ↔
    (∃ rd ra, i = .fsolve rd ra ∧ s.fv = true ∧ s.fval[ra] = true ∧
      fsolve s.fieldCtx s.f[ra].toNat = .error c) ∨
    (∃ rd ra xi, i = .pexp rd ra ∧ s.fv = true ∧ s.cv = true ∧ s.fval[ra] = true ∧
      red s.fieldCtx s.f[ra].toNat ≠ 0 ∧
      finv s.fieldCtx (expandX s.curveCtx (red s.fieldCtx s.f[ra].toNat)) = .ok xi ∧
      fsolve s.fieldCtx
        (expandOperand s.curveCtx (expandX s.curveCtx (red s.fieldCtx s.f[ra].toNat)) xi) = .error c) := by
  constructor
  · intro h
    cases i with
    | fsolve rd ra => exact .inl ⟨rd, ra, rfl, (fsolve_faults_iff hc).1 h⟩
    | pexp rd ra =>
      obtain ⟨hfv, hcv, ha, hexp⟩ := (pexp_faults_iff hc).1 h
      obtain ⟨hred, hinv | ⟨xi, hxi, hroot⟩⟩ := pexpand_eq_error_iff.1 hexp
      · exact absurd (finv_error hinv) hne
      · exact .inr ⟨rd, ra, xi, rfl, hfv, hcv, ha, hred, hxi, hroot⟩
    | _ => exact absurd (eq_noInverse_of_faults hc rfl h) hne
  · rintro (⟨rd, ra, rfl, h⟩ | ⟨rd, ra, xi, rfl, hfv, hcv, ha, hred, hxi, hroot⟩)
    · exact (fsolve_faults_iff hc).2 h
    · exact (pexp_faults_iff hc).2 ⟨hfv, hcv, ha, pexpand_eq_error_iff.2 ⟨hred, .inr ⟨xi, hxi, hroot⟩⟩⟩

end

/-- `PEXP` meets a value with no inverse only at the abscissa (R177, R308). -/
theorem pexp_noInverse_iff {rd : PReg} {ra : FReg} : s.Faults (.pexp rd ra) .noInverse ↔
    s.fv = true ∧ s.cv = true ∧ s.fval[ra] = true ∧ red s.fieldCtx s.f[ra].toNat ≠ 0 ∧
      finv s.fieldCtx (expandX s.curveCtx (red s.fieldCtx s.f[ra].toNat)) = .error .noInverse := by
  rw [pexp_faults_iff rfl, pexpand_eq_error_iff]
  simp only [fsolve_ne_noInverse, and_false, exists_false, or_false]
  rfl

/-- Settles O34: the solver's faults, and the commands whose own function meets a value with no inverse. -/
theorem computationFaultsExactly : Obligations.ComputationFaultsExactly := by
  intro i s
  refine ⟨?unsupported, ?noRoot, ?noInverse⟩
  case unsupported =>
    rw [solver_faults_iff (c := .unsupported) rfl nofun]
    simp only [fsolve_eq_unsupported_iff]
    rfl
  case noRoot =>
    rw [solver_faults_iff (c := .noRoot) rfl nofun]
    simp only [fsolve_eq_noRoot_iff]
    constructor
    · rintro (⟨rd, ra, rfl, hfv, ha, hodd, hroot⟩ | ⟨rd, ra, xi, rfl, hfv, hcv, ha, hred, hxi, hodd, hroot⟩)
      · exact .inl ⟨rd, ra, _, _, rfl, hfv, ha, hodd, rfl, rfl, hroot⟩
      · exact .inr ⟨rd, ra, _, xi, _, _, rfl, hfv, hcv, ha, hred, rfl, hxi, hodd, rfl, rfl, hroot⟩
    · rintro (⟨rd, ra, _, _, rfl, hfv, ha, hodd, rfl, rfl, hroot⟩ |
        ⟨rd, ra, _, xi, _, _, rfl, hfv, hcv, ha, hred, rfl, hxi, hodd, rfl, rfl, hroot⟩)
      · exact .inl ⟨rd, ra, rfl, hfv, ha, hodd, hroot⟩
      · exact .inr ⟨rd, ra, xi, rfl, hfv, hcv, ha, hred, hxi, hodd, hroot⟩
  case noInverse =>
    have hc : FaultCode.noInverse.computed = true := rfl
    constructor
    · intro h
      cases i with
      | finv rd ra =>
        obtain ⟨hfv, h⟩ := (finv_faults_iff hc).1 h
        exact ⟨hfv, .inl ⟨rd, ra, rfl, h⟩⟩
      | pcmp rd ra =>
        obtain ⟨hfv, hcv, h⟩ := (pcmp_faults_iff hc).1 h
        exact ⟨hfv, .inr ⟨hcv, .inl ⟨rd, ra, rfl, h⟩⟩⟩
      | pexp rd ra =>
        obtain ⟨hfv, hcv, h⟩ := pexp_noInverse_iff.1 h
        exact ⟨hfv, .inr ⟨hcv, .inr (.inl ⟨rd, ra, rfl, h⟩)⟩⟩
      | padd rd ra rb =>
        obtain ⟨hfv, hcv, h⟩ := (padd_faults_iff hc).1 h
        exact ⟨hfv, .inr ⟨hcv, .inr (.inr (.inl ⟨rd, ra, rb, rfl, h⟩))⟩⟩
      | pdbl rd ra =>
        obtain ⟨hfv, hcv, h⟩ := (pdbl_faults_iff hc).1 h
        exact ⟨hfv, .inr ⟨hcv, .inr (.inr (.inr (.inl ⟨rd, ra, rfl, h⟩)))⟩⟩
      | ptwp rd ra rb =>
        obtain ⟨hfv, hcv, h⟩ := (ptwp_faults_iff hc).1 h
        exact ⟨hfv, .inr ⟨hcv, .inr (.inr (.inr (.inr (.inl ⟨rd, ra, rb, rfl, h⟩))))⟩⟩
      | ptp2 rd ra imm =>
        obtain ⟨hfv, hcv, h⟩ := (ptp2_faults_iff hc).1 h
        exact ⟨hfv, .inr ⟨hcv, .inr (.inr (.inr (.inr (.inr (.inl ⟨rd, ra, imm, rfl, h⟩)))))⟩⟩
      | precomp ra w =>
        obtain ⟨hfv, hcv, ha, ⟨hlo, hhi⟩, h⟩ := (precomp_faults_iff hc).1 h
        exact ⟨hfv, .inr ⟨hcv, .inr (.inr (.inr (.inr (.inr (.inr (.inl ⟨ra, w, rfl, ha, hlo, hhi, h⟩))))))⟩⟩
      | mulpos rd ra rb =>
        obtain ⟨hfv, hcv, h⟩ := (mulpos_faults_iff hc).1 h
        exact ⟨hfv, .inr ⟨hcv, .inr (.inr (.inr (.inr (.inr (.inr (.inr (.inl ⟨rd, ra, rb, rfl, h⟩)))))))⟩⟩
      | pmul rd ra rb neg =>
        obtain ⟨hfv, hcv, h⟩ := (pmul_faults_iff hc).1 h
        exact ⟨hfv, .inr ⟨hcv, .inr (.inr (.inr (.inr (.inr (.inr (.inr (.inr ⟨rd, ra, rb, neg, rfl, h⟩)))))))⟩⟩
      | fsolve rd ra =>
        obtain ⟨-, -, h⟩ := (fsolve_faults_iff hc).1 h
        exact absurd h fsolve_ne_noInverse
      | _ => exact absurd h (not_faults_of_not_computes hc rfl)
    · rintro ⟨hfv, ⟨rd, ra, rfl, h⟩ | ⟨hcv, ⟨rd, ra, rfl, h⟩ | ⟨rd, ra, rfl, h⟩ | ⟨rd, ra, rb, rfl, h⟩ |
        ⟨rd, ra, rfl, h⟩ | ⟨rd, ra, rb, rfl, h⟩ | ⟨rd, ra, imm, rfl, h⟩ | ⟨ra, w, rfl, ha, hlo, hhi, h⟩ |
        ⟨rd, ra, rb, rfl, h⟩ | ⟨rd, ra, rb, neg, rfl, h⟩⟩⟩
      · exact (finv_faults_iff hc).2 ⟨hfv, h⟩
      · exact (pcmp_faults_iff hc).2 ⟨hfv, hcv, h⟩
      · exact pexp_noInverse_iff.2 ⟨hfv, hcv, h⟩
      · exact (padd_faults_iff hc).2 ⟨hfv, hcv, h⟩
      · exact (pdbl_faults_iff hc).2 ⟨hfv, hcv, h⟩
      · exact (ptwp_faults_iff hc).2 ⟨hfv, hcv, h⟩
      · exact (ptp2_faults_iff hc).2 ⟨hfv, hcv, h⟩
      · exact (precomp_faults_iff hc).2 ⟨hfv, hcv, ha, ⟨hlo, hhi⟩, h⟩
      · exact (mulpos_faults_iff hc).2 ⟨hfv, hcv, h⟩
      · exact (pmul_faults_iff hc).2 ⟨hfv, hcv, h⟩

end
end Sys2Proof.Machine

/-! Proofs. The group law on the residue ring: over any modulus the formulas of R171 stay on the curve, and the laws that
hold of any pair of points. -/

namespace Sys2Proof.Machine

section
variable {K : FieldCtx} {C : CurveCtx} {P Q R : Point}

/-! ### The identity and the negative (R173, R179) -/

theorem pisid_iff : pisid P = true ↔ P = Point.identity := by
  cases P
  simp [pisid, Point.identity]

@[simp] theorem padd_identity_left : padd C Point.identity Q = .ok Q := rfl

@[simp] theorem padd_identity_right : padd C P Point.identity = .ok P := by
  by_cases hP : pisid P = true
  · rw [pisid_iff.1 hP, padd_identity_left]
  · rw [padd, if_neg hP]; rfl

theorem pneg_pneg (P : Point) : pneg (pneg P) = P := by
  simp [pneg]

theorem pneg_of_x_eq_zero (h : P.x = 0) : pneg P = P := by
  cases P
  simp_all [pneg]

/-- Two points of one abscissa that differ, or whose abscissa is 0, add to the identity (R171). -/
theorem padd_eq_identity (hP : P ≠ Point.identity) (hQ : Q ≠ Point.identity) (hx : P.x = Q.x)
    (hy : P.y ≠ Q.y ∨ P.x = 0) : padd C P Q = .ok Point.identity := by
  rw [padd, if_neg (mt pisid_iff.1 hP), if_neg (mt pisid_iff.1 hQ), if_neg (not_not.2 hx), if_pos hy]

theorem padd_pneg (P : Point) : padd C P (pneg P) = .ok Point.identity := by
  by_cases hP : P = Point.identity
  · rw [hP]; rfl
  · have hneg : pneg P ≠ Point.identity := fun h => hP (by rw [← pneg_pneg P, h]; rfl)
    refine padd_eq_identity hP hneg rfl ?_
    rw [or_iff_not_imp_right]
    intro hx hy
    have hcancel : P.x ^^^ P.y = 0 ^^^ P.y := by rw [Nat.zero_xor]; exact hy.symm
    exact hx (Nat.xor_left_injective hcancel)

theorem pdbl_of_x_eq_zero (h : P.x = 0) : pdbl C P = .ok Point.identity := by
  have hneg := padd_pneg (C := C) P
  rwa [pneg_of_x_eq_zero h] at hneg

/-! ### The chord from either end (R171) -/

theorem residueRing_two (hK : K.Sound) : (2 : ResidueRing K) = 0 :=
  have := residueRing_charTwo hK
  CharTwo.two_eq_zero

theorem residue_inverse {a i : Nat} (hK : K.Sound) (hi : finv K a = .ok i) : residue K a * residue K i = 1 :=
  (fmul_red_eq_one_iff hK).1 (finv_sound hi).1

/-- The slope times the difference of the abscissas is the difference of the ordinates. -/
theorem residue_slope {i dx dy : Nat} (hK : K.Sound) (hi : finv K dx = .ok i) :
    residue K (fmul K dy i) * residue K dx = residue K dy := by
  rw [residue_fmul, mul_assoc, mul_comm (residue K i), residue_inverse hK hi, mul_one]

/-- The line through two points gives one third point, whichever of them its ordinate is reckoned from. -/
theorem slopePoint_comm {l : Nat} (hK : K.Sound) (hP : P.Reduced K) (hQ : Q.Reduced K)
    (hl : residue K l * residue K (P.x ^^^ Q.x) = residue K (P.y ^^^ Q.y)) {xr : Nat} (hxr : xr < 2 ^ K.m) :
    slopePoint K l xr P = slopePoint K l xr Q := by
  have hP' := (slopePoint_reduced (l := l) hK hxr hP).2
  have hQ' := (slopePoint_reduced (l := l) hK hxr hQ).2
  have hy : (slopePoint K l xr P).y = (slopePoint K l xr Q).y := by
    have htwo := residueRing_two hK
    rw [← residue_inj hK hP' hQ']
    simp only [residue_xor] at hl
    simp only [slopePoint, residue_xor, residue_fmul]
    grind
  exact congrArg (Point.mk xr) hy

theorem chord_comm (hC : C.Sound) (hP : P.Reduced C.fld) (hQ : Q.Reduced C.fld) : chord C P Q = chord C Q P := by
  obtain ⟨hK, ha, -, -⟩ := hC
  unfold chord
  rw [Nat.xor_comm Q.x, Nat.xor_comm Q.y]
  cases hi : finv C.fld (P.x ^^^ Q.x) with
  | error c => rfl
  | ok i =>
    have hl := fmul_lt hK (P.y ^^^ Q.y) i
    have hxr := Nat.xor_lt_two_pow (Nat.xor_lt_two_pow (Nat.xor_lt_two_pow
      (Nat.xor_lt_two_pow ha (fsqr_lt hK (fmul C.fld (P.y ^^^ Q.y) i))) hl) hP.1) hQ.1
    refine congrArg Except.ok ((slopePoint_comm hK hP hQ (residue_slope hK hi) hxr).trans ?_)
    rw [Nat.xor_right_comm _ P.x Q.x]

theorem padd_comm (hC : C.Sound) (hP : P.Reduced C.fld) (hQ : Q.Reduced C.fld) : padd C P Q = padd C Q P := by
  rcases padd_cases (C := C) (P := P) (Q := Q) with
    ⟨hid, e⟩ | ⟨-, hid, e⟩ | ⟨hP', hQ', hx, e⟩ | ⟨hP', hQ', hx, hy, e⟩ | ⟨-, -, rfl, -, -⟩
  · rw [e, pisid_iff.1 hid, padd_identity_right]
  · rw [e, pisid_iff.1 hid, padd_identity_left]
  · rw [e, chord_comm hC hP hQ, padd, if_neg (by simp [hQ']), if_neg (by simp [hP']), if_pos hx.symm]
  · have hPne := mt pisid_iff.2 (by simpa using hP')
    have hQne := mt pisid_iff.2 (by simpa using hQ')
    rw [e, padd_eq_identity hQne hPne hx.symm (hy.imp Ne.symm hx.symm.trans)]
  · rfl

/-- Settles O44: the cases of R171, and the chord from either end. -/
theorem groupLawsOfPadd : Obligations.GroupLawsOfPadd := fun _ P _ =>
  ⟨padd_identity_right, padd_identity_left, padd_pneg P, rfl, pneg_pneg P, rfl,
    fun hx => ⟨pneg_of_x_eq_zero hx, pdbl_of_x_eq_zero hx⟩, padd_comm⟩

/-! ### The curve equation in a commutative ring of characteristic 2 (R171, R177, R178) -/

section
variable {A : Type} [CommRing A] {a b x y l i : A}

/-- The equation `y² + x·y = x³ + a·x² + b`. -/
def CurveEq (a b x y : A) : Prop := y ^ 2 + x * y = x ^ 3 + a * x ^ 2 + b

/-- Divided by `x²`, the equation is `z² + z = x + a + b/x²` for the ratio `z` of the coordinates. -/
theorem curveEq_iff_ratio (hi : x * i = 1) : CurveEq a b x y ↔ (y * i) ^ 2 + y * i = x + a + b * i ^ 2 := by
  have scale : (y ^ 2 + x * y) * i ^ 2 = (y * i) ^ 2 + y * i := by grind
  have scale' : (x ^ 3 + a * x ^ 2 + b) * i ^ 2 = x + a + b * i ^ 2 := by grind
  rw [CurveEq, ← scale, ← scale']
  refine ⟨fun h => by rw [h], fun h => ?_⟩
  have hunit : IsUnit (i ^ 2) := (IsUnit.of_mul_eq_one x (by rw [mul_comm, hi])).pow 2
  exact hunit.mul_right_cancel h

variable (htwo : (2 : A) = 0)
include htwo

theorem CurveEq.neg (h : CurveEq a b x y) : CurveEq a b x (x + y) := by
  unfold CurveEq at *
  grind

/-- A line through two points whose abscissas differ by a unit meets the curve in a third, whose negative is the sum:
the difference quotient of the cubic that is left vanishes, so the third root is the one the coefficients give. -/
theorem CurveEq.chord {x' : A} (h : CurveEq a b x y) (h' : CurveEq a b x' (y + l * (x + x')))
    (hi : (x + x') * i = 1) : CurveEq a b (a + l ^ 2 + l + x + x')
      (l * (x + (a + l ^ 2 + l + x + x')) + (a + l ^ 2 + l + x + x') + y) := by
  unfold CurveEq at *
  have hquotient : x ^ 2 + x * x' + x' ^ 2 + (a + l ^ 2 + l) * (x + x') + (y + l * x) = 0 := by grind
  grind

/-- The tangent at a point meets the curve in one more, whose negative is the double. -/
theorem CurveEq.tangent (h : CurveEq a b x y) (hl : l * x = x ^ 2 + y) :
    CurveEq a b (l ^ 2 + a + l) (l * (x + (l ^ 2 + a + l)) + (l ^ 2 + a + l) + y) := by
  unfold CurveEq at *
  grind

end

/-! ### The engine's points are on the curve (R171, R173, R178) -/

theorem OnCurve.contains (hP : OnCurve C P) (hne : pisid P = false) : pcontains C P = true :=
  hP.2.resolve_left (mt pisid_iff.2 (by simp [hne]))

section
variable (hC : C.Sound)
include hC

/-- The check of R178 is the curve equation in the residue ring. -/
theorem pcontains_iff : pcontains C P = true ↔
    CurveEq (residue C.fld C.a) (residue C.fld C.b) (residue C.fld P.x) (residue C.fld P.y) := by
  obtain ⟨hK, -, hb, -⟩ := hC
  have hl := Nat.xor_lt_two_pow (fsqr_lt hK P.y) (fmul_lt hK P.x P.y)
  have hr := Nat.xor_lt_two_pow (Nat.xor_lt_two_pow (fmul_lt hK (fsqr C.fld P.x) P.x)
    (fmul_lt hK C.a (fsqr C.fld P.x))) hb
  rw [pcontains, beq_iff_eq, ← residue_inj hK hl hr, CurveEq]
  simp only [residue_xor, residue_fmul, residue_fsqr, ← pow_succ]

theorem pneg_onCurve (hP : OnCurve C P) : OnCurve C (pneg P) := by
  obtain ⟨hred, hon⟩ := hP
  refine ⟨pneg_reduced hred, hon.imp (fun h => by rw [h]; rfl) fun h => ?_⟩
  rw [pcontains_iff hC] at h ⊢
  rw [pneg, residue_xor]
  exact h.neg (residueRing_two hC.1)

theorem chord_onCurve (hP : pcontains C P = true) (hQ : pcontains C Q = true) (h : chord C P Q = .ok R) :
    pcontains C R = true := by
  have htwo := residueRing_two hC.1
  obtain ⟨i, hi, rfl⟩ := chord_eq_ok.1 h
  have hinv := residue_inverse hC.1 hi
  have hl := residue_slope (dy := P.y ^^^ Q.y) hC.1 hi
  rw [pcontains_iff hC] at hP hQ ⊢
  simp only [residue_xor] at hl hinv
  have hy : residue C.fld Q.y = residue C.fld P.y +
      residue C.fld (fmul C.fld (P.y ^^^ Q.y) i) * (residue C.fld P.x + residue C.fld Q.x) := by grind
  rw [hy] at hQ
  simp only [slopePoint, residue_xor, residue_fmul _ (P.x ^^^ _), residue_fsqr]
  exact hP.chord htwo hQ hinv

theorem tangent_onCurve (hP : pcontains C P = true) (h : tangent C P = .ok R) : pcontains C R = true := by
  obtain ⟨i, hi, rfl⟩ := tangent_eq_ok.1 h
  have hl := residue_slope (dy := P.y) hC.1 hi
  rw [pcontains_iff hC] at hP ⊢
  simp only [slopePoint, residue_xor, residue_fmul _ (P.x ^^^ _), residue_fsqr]
  exact hP.tangent (residueRing_two hC.1) (by rw [add_mul, hl, sq])

theorem padd_onCurve (hP : OnCurve C P) (hQ : OnCurve C Q) (h : padd C P Q = .ok R) : OnCurve C R := by
  refine ⟨padd_reduced hC hP.1 hQ.1 h, ?_⟩
  rcases padd_cases (C := C) (P := P) (Q := Q) with
    ⟨-, e⟩ | ⟨-, -, e⟩ | ⟨hP', hQ', -, e⟩ | ⟨-, -, -, -, e⟩ | ⟨hP', -, -, -, e⟩ <;> rw [e] at h
  · cases h; exact hQ.2
  · cases h; exact hP.2
  · exact .inr (chord_onCurve hC (hP.contains hP') (hQ.contains hQ') h)
  · cases h; exact .inl rfl
  · exact .inr (tangent_onCurve hC (hP.contains hP') h)

end

/-! ### Expanded points (R177) -/

/-- What the expansion of a value not congruent to 0 answers. -/
theorem pexpandReduced_eq_ok {c : Nat} : pexpandReduced C c = .ok R ↔ ∃ xi z, finv C.fld (expandX C c) = .ok xi ∧
    fsolve C.fld (expandOperand C (expandX C c) xi) = .ok z ∧
    R = ⟨expandX C c, fmul C.fld (expandRoot C.fld z (c % 2)) (expandX C c)⟩ := by
  simp only [pexpandReduced, expandOperand, except_bind_eq_ok, except_pure_eq, Except.ok.injEq, eq_comm (a := R)]
  constructor
  · rintro ⟨xi, hxi, z, hz, h⟩; exact ⟨xi, z, hxi, hz, h⟩
  · rintro ⟨xi, z, hxi, hz, h⟩; exact ⟨xi, hxi, z, hz, h⟩

theorem residue_expandOperand (x xi : Nat) : residue C.fld (expandOperand C x xi) =
    residue C.fld x + residue C.fld C.a + residue C.fld C.b * residue C.fld xi ^ 2 := by
  simp only [expandOperand, residue_xor, residue_fmul, residue_fsqr]

/-- Both roots are roots: the choice of R177 keeps `z² + z`. -/
theorem residue_expandRoot (hK : K.Sound) (z k : Nat) :
    residue K (expandRoot K z k) ^ 2 + residue K (expandRoot K z k) = residue K z ^ 2 + residue K z := by
  have htwo := residueRing_two hK
  unfold expandRoot
  split
  · rfl
  · rw [residue_xor, residue_one]; grind

theorem residue_root {a z : Nat} (h : fsqr K z ^^^ z = red K a) : residue K z ^ 2 + residue K z = residue K a := by
  rw [← residue_red a, ← h, residue_xor, residue_fsqr]

/-- A value whose quadratic has a root has trace 0 (R126). -/
theorem ftrace_eq_zero_of_root (hK : K.Proper) {a z : Nat} (hz : z < 2 ^ K.m)
    (h : residue K z ^ 2 + residue K z = residue K a) : ftrace K a = 0 := by
  refine (ftrace_eq_zero_iff hK _).2 ⟨z, hz, ?_⟩
  rw [← residue_inj hK.1 (Nat.xor_lt_two_pow (fsqr_lt hK.1 _) hz) (red_lt hK.1 _), residue_red, residue_xor,
    residue_fsqr, h]

theorem pexpandReduced_contains (hC : C.Sound) {c : Nat} (h : pexpandReduced C c = .ok R) : pcontains C R = true := by
  obtain ⟨xi, z, hxi, hz, rfl⟩ := pexpandReduced_eq_ok.1 h
  obtain ⟨-, hroot, -⟩ := fsolve_eq_ok.1 hz
  have hinv := residue_inverse hC.1 hxi
  have hcancel : ∀ t : ResidueRing C.fld, t * residue C.fld (expandX C c) * residue C.fld xi = t := fun t => by
    rw [mul_assoc, hinv, mul_one]
  rw [pcontains_iff hC, curveEq_iff_ratio hinv, residue_fmul, hcancel, residue_expandRoot hC.1, residue_root hroot,
    residue_expandOperand]

theorem pexpand_onCurve (hC : C.Sound) {c : Nat} (h : pexpand C c = .ok R) : OnCurve C R := by
  refine ⟨pexpand_reduced hC h, ?_⟩
  unfold pexpand at h
  split at h
  · cases h; exact .inl rfl
  · exact .inr (pexpandReduced_contains hC h)

/-- Settles O45: the line through two points meets the curve in a third, and an expanded point is built from a root of
the curve equation divided by `x²`. -/
theorem pointResultsStayOnCurve : Obligations.PointResultsStayOnCurve := fun _ _ _ _ _ hC =>
  ⟨pneg_onCurve hC, padd_onCurve hC, pexpand_onCurve hC⟩

/-! ### The round trip (R176, R177, R194) -/

theorem withLowBit_mod_two {x t : Nat} (ht : t < 2) : withLowBit x t % 2 = t := by
  unfold withLowBit; omega

theorem withLowBit_withLowBit {x t : Nat} (ht : t < 2) (u : Nat) : withLowBit (withLowBit x t) u = withLowBit x u := by
  unfold withLowBit; omega

theorem withLowBit_self (x : Nat) : withLowBit x (x % 2) = x := by
  unfold withLowBit; omega

theorem withLowBit_zero_xor_one (x : Nat) : withLowBit x 0 ^^^ 1 = withLowBit x 1 :=
  Nat.xor_one_of_even ⟨x / 2, by rw [withLowBit]; omega⟩

section
variable (hodd : C.fld.m % 2 = 1)
include hodd

theorem ftrace_xor_one (hK : C.fld.Sound) (a : Nat) : ftrace C.fld (a ^^^ 1) = (ftrace C.fld a + 1) % 2 := by
  rw [ftrace_xor hK, ftrace_one hK, hodd]

/-- In odd degree the two candidates for the abscissa differ in trace, so the condition of R177 picks the right one. -/
theorem expandX_withLowBit (hK : C.fld.Sound) {x t : Nat} (ht : t < 2) (htr : ftrace C.fld x = ftrace C.fld C.a) :
    expandX C (withLowBit x t) = x := by
  unfold expandX
  rw [withLowBit_withLowBit ht, withLowBit_withLowBit ht, ← htr]
  have hself := withLowBit_self x
  rcases Nat.mod_two_eq_zero_or_one x with h0 | h1
  · rw [h0] at hself
    rw [hself, if_pos rfl]
  · rw [h1] at hself
    have hflip := ftrace_xor_one hodd hK (withLowBit x 0)
    rw [withLowBit_zero_xor_one, hself] at hflip
    have hlt := ftrace_lt (K := C.fld) (withLowBit x 0)
    rw [if_neg (by omega), hself]

/-- Over a proper field of odd degree the trace tells the two roots of `z² + z` apart (R177). -/
theorem expandRoot_ftrace (hK : C.fld.Proper) {z r : Nat} (hz : z < 2 ^ C.fld.m) (hr : r < 2 ^ C.fld.m)
    (h : residue C.fld z ^ 2 + residue C.fld z = residue C.fld r ^ 2 + residue C.fld r) :
    expandRoot C.fld z (ftrace C.fld r) = r := by
  have := Fact.mk (irreducible_modulus hK)
  have htwo := residueRing_two hK.1
  have hfactor : (residue C.fld z + residue C.fld r) * (residue C.fld (z ^^^ 1) + residue C.fld r) = 0 := by
    rw [residue_xor, residue_one]; grind
  have eq_of : ∀ {v}, v < 2 ^ C.fld.m → residue C.fld v + residue C.fld r = 0 → v = r := fun hv h => by
    rwa [← residue_xor, ← residue_eq_iff_xor, residue_inj hK.1 hv hr] at h
  have hone := one_lt_two_pow_degree hK.1
  unfold expandRoot
  rcases mul_eq_zero.1 hfactor with h | h
  · rw [eq_of hz h, if_pos rfl]
  · have hzr := eq_of (Nat.xor_lt_two_pow hz hone) h
    have hflip := ftrace_xor_one hodd hK.1 z
    rw [hzr] at hflip
    have hlt := ftrace_lt (K := C.fld) z
    rw [if_neg (by omega), hzr]

end

/-- Over a proper field a value not congruent to 0 has an inverse, which inversion answers. -/
theorem finv_of_ne_zero (hK : K.Proper) {a : Nat} (hlt : a < 2 ^ K.m) (h : a ≠ 0) : ∃ i, finv K a = .ok i := by
  obtain ⟨r, hr⟩ := exists_inverse hK (a := a) (by rwa [red_of_lt hK.1 hlt])
  exact ⟨r, (finv_eq_ok_iff hK.1).2 hr⟩

/-- The compressed value of a point other than the identity (R176). -/
theorem pcompress_of_finv {i : Nat} (hx : P.x ≠ 0) (hi : finv C.fld P.x = .ok i) :
    pcompress C P = .ok (withLowBit P.x (ftrace C.fld (fmul C.fld P.y i))) := by
  have hne : ¬ pisid P = true := fun h => hx (by rw [pisid_iff.1 h]; rfl)
  rw [pcompress, if_neg hne, hi]
  rfl

section
variable {i : Nat} (hi : finv C.fld P.x = .ok i)
include hi

/-- The ratio of the coordinates is a root of the equation that R177 solves. -/
theorem residue_ratio_root (hC : C.Sound) (hon : pcontains C P = true) :
    residue C.fld (fmul C.fld P.y i) ^ 2 + residue C.fld (fmul C.fld P.y i) =
      residue C.fld (expandOperand C P.x i) := by
  rw [residue_expandOperand, residue_fmul, ← curveEq_iff_ratio (residue_inverse hC.1 hi), ← pcontains_iff hC]
  exact hon

/-- The ratio times the abscissa is the ordinate. -/
theorem fmul_ratio (hK : C.fld.Sound) (hred : P.Reduced C.fld) : fmul C.fld (fmul C.fld P.y i) P.x = P.y := by
  rw [fmul_eq_iff hK hred.2, residue_slope hK hi]

/-- What a point compresses to expands to the point, unless it is 0 (R176, R177). -/
theorem pexpand_withLowBit (hC : C.Proper) (hodd : C.fld.m % 2 = 1) (hred : P.Reduced C.fld)
    (hon : pcontains C P = true) (htr : ftrace C.fld P.x = ftrace C.fld C.a)
    (hne : withLowBit P.x (ftrace C.fld (fmul C.fld P.y i)) ≠ 0) :
    pexpand C (withLowBit P.x (ftrace C.fld (fmul C.fld P.y i))) = .ok P := by
  obtain ⟨hS, hirr⟩ := hC
  have hK : C.fld.Proper := ⟨hS.1, hirr⟩
  have hbit := ftrace_lt (K := C.fld) (fmul C.fld P.y i)
  have hratio := fmul_lt hS.1 P.y i
  have hroot := residue_ratio_root hi hS hon
  have htrace := ftrace_eq_zero_of_root hK hratio hroot
  obtain ⟨-, -, hsolver⟩ := fsolveDecidesByTrace C.fld (expandOperand C P.x i)
  obtain ⟨-, hanswer⟩ := hsolver hK hodd
  obtain ⟨z, hz, hsolve, hzroot⟩ := hanswer htrace
  have hX := expandX_withLowBit hodd hS.1 hbit htr
  have hY := expandRoot_ftrace hodd hK hz hratio ((residue_root hzroot).trans hroot.symm)
  rw [pexpand, red_of_lt hS.1 (withLowBit_lt hS.1 hred.1 hbit), if_neg hne, pexpandReduced_eq_ok, hX,
    withLowBit_mod_two hbit]
  exact ⟨i, z, hi, hsolve, by rw [hY, fmul_ratio hi hS.1 hred]⟩

end

theorem pexpand_zero (hK : C.fld.Sound) : pexpand C 0 = .ok Point.identity :=
  if_pos ((red_eq_zero_iff hK).2 residue_zero)

/-- Settles O46: the ratio `y/x` is the root of the two that the trace picks. -/
theorem compressExpandRoundTrip : Obligations.CompressExpandRoundTrip := by
  rintro C P hC hodd ⟨hred, hon⟩
  refine ⟨?identity, fun hx htr => ?affine⟩
  case identity =>
    rintro rfl
    exact ⟨rfl, pexpand_zero hC.1.1⟩
  case affine =>
    have hcontains := hon.resolve_left fun h => hx (by rw [h]; rfl)
    obtain ⟨i, hi⟩ := finv_of_ne_zero ⟨hC.1.1, hC.2⟩ hred.1 hx
    exact ⟨_, pcompress_of_finv hx hi, pexpand_withLowBit hi hC hodd hred hcontains htr⟩

/-- The curve of log 9: the field of T5 with `a = 1`, `b = 2`. -/
def cornerCurve : CurveCtx := ⟨⟨5, 0x25⟩, 1, 2⟩

theorem cornerCurve_proper : cornerCurve.Proper := by
  unfold CurveCtx.Proper CurveCtx.Sound FieldCtx.Irreducible FieldCtx.Sound
  decide +kernel

/-- The corner of log 9: a point of the curve that compresses to 0, which expands to the identity. -/
theorem cornerCurve_point : pcontains cornerCurve ⟨1, 9⟩ = true ∧
    ftrace cornerCurve.fld 1 = ftrace cornerCurve.fld cornerCurve.a ∧
    pcompress cornerCurve ⟨1, 9⟩ = .ok 0 ∧ pexpand cornerCurve 0 = .ok ⟨0, 0⟩ := by decide +kernel

/-- Refutes O47: on T5's field with `a = 1`, `b = 2` the point (1, 9) compresses to 0, which is the identity's. -/
theorem not_roundTripWithoutSideCondition : ¬ Obligations.RoundTripWithoutSideCondition := by
  intro h
  obtain ⟨hon, htr, hcompress, hexpand⟩ := cornerCurve_point
  have hback := h cornerCurve ⟨1, 9⟩ 0 cornerCurve_proper rfl hon ⟨by decide, by decide⟩ one_ne_zero htr hcompress
  cases hexpand.symm.trans hback

end
end Sys2Proof.Machine

/-! Proofs. Over a proper field the point functions have a value: every inversion they ask for is of a reduced value other
than 0, and every point they build is reduced again. -/

namespace Sys2Proof.Machine

section
variable {C : CurveCtx} {P Q : Point} {T N : List Point} {w e k : Nat}

/-- The computation has a value, and the value has the property. -/
def Answers {α : Type} (Q : α → Prop) (x : Except FaultCode α) : Prop := ∃ a, x = .ok a ∧ Q a

section
variable {α β : Type} {Q : α → Prop} {Q' : β → Prop} {x : Except FaultCode α} {k : α → Except FaultCode β}

theorem answers_ok {a : α} (h : Q a) : Answers Q (.ok a) := ⟨a, rfl, h⟩

theorem Answers.bind (hx : Answers Q x) (hk : ∀ a, Q a → Answers Q' (k a)) : Answers Q' (x >>= k) := by
  obtain ⟨a, rfl, ha⟩ := hx
  exact hk a ha

end

variable (hC : C.Proper)
include hC

/-- The chord inverts the difference of two abscissas that differ, the tangent an abscissa that is not 0 (R171). -/
theorem padd_answers (hP : P.Reduced C.fld) (hQ : Q.Reduced C.fld) : Answers (Point.Reduced C.fld) (padd C P Q) := by
  have hK : C.fld.Proper := ⟨hC.1.1, hC.2⟩
  obtain ⟨R, hR⟩ : ∃ R, padd C P Q = .ok R := by
    rcases padd_cases (C := C) (P := P) (Q := Q) with
      ⟨-, h⟩ | ⟨-, -, h⟩ | ⟨-, -, hx, h⟩ | ⟨-, -, -, -, h⟩ | ⟨-, -, -, hx, h⟩ <;> rw [h]
    · exact ⟨_, rfl⟩
    · exact ⟨_, rfl⟩
    · obtain ⟨i, hi⟩ := finv_of_ne_zero hK (Nat.xor_lt_two_pow hP.1 hQ.1) (mt Nat.xor_eq_zero_iff.1 hx)
      exact ⟨_, chord_eq_ok.2 ⟨i, hi, rfl⟩⟩
    · exact ⟨_, rfl⟩
    · obtain ⟨i, hi⟩ := finv_of_ne_zero hK hP.1 hx
      exact ⟨_, tangent_eq_ok.2 ⟨i, hi, rfl⟩⟩
  exact ⟨R, hR, padd_reduced hC.1 hP hQ hR⟩

theorem ptwp_answers (hP : P.Reduced C.fld) (hQ : Q.Reduced C.fld) : Answers (Point.Reduced C.fld) (ptwp C P Q) :=
  (padd_answers hC hP hP).bind fun _ hD => padd_answers hC hD hQ

theorem ptp2_answers (hP : P.Reduced C.fld) : Answers (Point.Reduced C.fld) (ptp2 C P e) := by
  induction e generalizing P with
  | zero => exact answers_ok hP
  | succ e ih => exact (padd_answers hC hP hP).bind fun _ hD => ih hD

theorem oddMultiples_answers {D : Point} (hD : D.Reduced C.fld) (hP : P.Reduced C.fld) (n : Nat) :
    Answers (AllReduced C.fld) (oddMultiples C D n P) := by
  induction n generalizing P with
  | zero => exact answers_ok nofun
  | succ n ih =>
    exact (padd_answers hC hP hD).bind fun _ hB => (ih hB).bind fun _ hT =>
      answers_ok (List.forall_mem_cons.2 ⟨hB, hT⟩)

theorem precompute_answers (hP : P.Reduced C.fld) :
    Answers (fun tab => AllReduced C.fld tab.1 ∧ AllReduced C.fld tab.2) (precompute C P w) := by
  have hpos : Answers (AllReduced C.fld) (precomputePos C P w) := by
    unfold precomputePos
    split
    · exact answers_ok (List.forall_mem_singleton.2 hP)
    · exact (padd_answers hC hP hP).bind fun _ hD => (oddMultiples_answers hC hD hP _).bind fun _ hT =>
        answers_ok (List.forall_mem_cons.2 ⟨hP, hT⟩)
  exact hpos.bind fun _ hT => answers_ok ⟨hT, List.forall_mem_map.2 fun _ hA => pneg_reduced (hT _ hA)⟩

section
variable (hT : AllReduced C.fld T) (hN : AllReduced C.fld N)
include hT hN

theorem topDigit_answers (d : Word) : Answers (fun r => r.1.Reduced C.fld) (topDigit C T N w d) := by
  have htab : AllReduced C.fld (if digitOf d < 0 then N else T) := by
    split
    · exact hN
    · exact hT
  unfold topDigit
  simp only
  split
  · exact (padd_answers hC (htab.getD _) (htab.getD _)).bind fun _ hR => answers_ok hR
  · exact answers_ok (htab.getD _)

theorem scanDigits_answers (hP : P.Reduced C.fld) (es : List Word) :
    Answers (Point.Reduced C.fld) (scanDigits C T N es P) := by
  induction es generalizing P with
  | nil => exact answers_ok hP
  | cons d es ih =>
    have hdigit : Answers (Point.Reduced C.fld) (scanDigit C T N P d) :=
      (ptwp_answers hC hP (tableEntry_reduced hT hN _)).bind fun _ hS => ptp2_answers hC hS
    exact hdigit.bind fun _ hR => ih hR

theorem scan_answers (es : List Word) : Answers (Point.Reduced C.fld) (scan C T N w es) := by
  match es with
  | [] => exact scanDigits_answers hC hT hN identity_reduced _
  | [_] => exact scanDigits_answers hC hT hN identity_reduced _
  | d :: _ :: _ =>
    exact (topDigit_answers hC hT hN d).bind fun _ htop => (ptp2_answers hC htop).bind fun _ hR =>
      scanDigits_answers hC hT hN hR _

end

theorem mulpos_answers (hP : P.Reduced C.fld) : Answers (fun r => r.point.Reduced C.fld) (mulpos C P k) :=
  (precompute_answers hC hP).bind fun _ ⟨hT, hN⟩ => (scan_answers hC hT hN _).bind fun _ hR => answers_ok hR

end

/-- Settles O48: no function inverts anything but a difference of abscissas that differ or an abscissa other than 0. -/
theorem pointFunctionsNeverFaultOverProperField : Obligations.PointFunctionsNeverFaultOverProperField := by
  intro C P Q e k hC hP hQ _
  refine ⟨padd_answers hC hP hQ, ptwp_answers hC hP hQ, ptp2_answers hC hP, fun w _ _ => ?table,
    mulpos_answers hC hP, fun hx => ?compress⟩
  case table =>
    obtain ⟨⟨T, N⟩, h, hT, hN⟩ := precompute_answers (w := w) hC hP
    exact ⟨T, N, h, List.forall_mem_append.2 ⟨hT, hN⟩⟩
  case compress =>
    obtain ⟨i, hi⟩ := finv_of_ne_zero ⟨hC.1.1, hC.2⟩ hP.1 hx
    exact ⟨_, pcompress_of_finv hx hi⟩

end Sys2Proof.Machine

/-! Proofs. The recoding of a scalar stands for the scalar: both loops of R215 and R216 keep what is left to recode times
the position it stands at. -/

namespace Sys2Proof.Machine

section
variable {w k : Nat} {e : Word} {es : List Word}

/-! ### The packed word (R213) -/

theorem digitOf_pack {d : Int} (hd : d.natAbs < 2 ^ 15) (z : Nat) : digitOf (pack d z) = d := by
  rw [digitOf, pack, BitVec.extractLsb'_append_eq_left]
  exact BitVec.toInt_ofInt_eq_self (by decide) (by omega) (by omega)

theorem zerosOf_pack (d : Int) {z : Nat} (hz : z < 2 ^ 16) : zerosOf (pack d z) = z := by
  rw [zerosOf, pack, BitVec.extractLsb'_append_eq_right, BitVec.toNat_ofNat, Nat.mod_eq_of_lt hz]

/-! ### The value of an array (R214) -/

theorem nafSum_add (b c : Nat) (es : List Word) : nafSum (b + c) es = nafSum b es * 2 ^ c := by
  induction es generalizing b with
  | nil => simp [nafSum]
  | cons e es ih =>
    have hpos : b + c + zerosOf e = b + zerosOf e + c := Nat.add_right_comm ..
    have hnext : b + zerosOf e + c + 1 = b + zerosOf e + 1 + c := Nat.add_right_comm ..
    rw [nafSum, nafSum, hpos, hnext, ih]
    ring

@[simp] theorem nafValue_nil : nafValue [] = 0 := rfl

/-- The first entry's digit, then twice the value of the rest, above the first entry's zeros. -/
theorem nafValue_cons (e : Word) (es : List Word) :
    nafValue (e :: es) = (digitOf e + 2 * nafValue es) * 2 ^ zerosOf e := by
  have hshift : nafSum (0 + zerosOf e + 1) es = nafValue es * 2 ^ (zerosOf e + 1) := by
    rw [Nat.add_assoc, nafSum_add]; rfl
  rw [nafValue, nafSum, hshift, Nat.zero_add]
  ring

/-- The digits of width `w` are below twice the length of the table (R214, R219). -/
theorem two_pow_pred (hw : 2 ≤ w) : 2 ^ (w - 1) = 2 * 2 ^ (w - 2) := by
  rw [← Nat.pow_succ']
  congr 1
  omega

/-- The array is a width-`w` recoding of the value (R214). -/
structure Recodes (w : Nat) (v : Int) (es : List Word) : Prop where
  value : nafValue es = v
  digits : ∀ e ∈ es, digitOf e % 2 = 1 ∧ (digitOf e).natAbs < 2 ^ (w - 1)
  gaps : ∀ e ∈ es.tail, w - 1 ≤ zerosOf e
  top : ∀ e, es.getLast? = some e → 0 < digitOf e

theorem recodes_nil (w : Nat) : Recodes w 0 [] := ⟨rfl, nofun, nofun, nofun⟩

/-- An entry below a recoding whose first entry keeps its distance. -/
theorem Recodes.cons {v : Int} (hes : Recodes w v es) (hodd : digitOf e % 2 = 1)
    (hlt : (digitOf e).natAbs < 2 ^ (w - 1)) (hgap : ∀ e' ∈ es.head?, w - 1 ≤ zerosOf e')
    (hpos : 0 < digitOf e + 2 * v) : Recodes w ((digitOf e + 2 * v) * 2 ^ zerosOf e) (e :: es) where
  value := by rw [nafValue_cons, hes.value]
  digits := List.forall_mem_cons.2 ⟨⟨hodd, hlt⟩, hes.digits⟩
  gaps := by
    cases es with
    | nil => nofun
    | cons e' es => exact List.forall_mem_cons.2 ⟨hgap e' rfl, hes.gaps⟩
  top e' he' := by
    cases es with
    | nil =>
      have hv : v = 0 := hes.value.symm
      cases he'
      simpa [hv] using hpos
    | cons e'' es => exact hes.top e' (by rwa [List.getLast?_cons_cons] at he')

/-- A loop that has reached `out` and has `v` left to recode, above `z` zeros, ends in `res`: the entries it puts out are
a recoding, and the first of them has those zeros at least. -/
def Appends (w : Nat) (out : List Word) (v z : Nat) (res : List Word) : Prop :=
  ∃ es, res = out ++ es ∧ Recodes w (v * 2 ^ z : Nat) es ∧ ∀ e ∈ es.head?, z ≤ zerosOf e

section
variable {out res : List Word} {v z : Nat}

/-- Nothing is left. -/
theorem appends_nil (w : Nat) (out : List Word) (z : Nat) : Appends w out 0 z out :=
  ⟨[], (List.append_nil out).symm, by rw [Nat.zero_mul]; exact recodes_nil w, nofun⟩

/-- A position that is passed over is one more zero. -/
theorem Appends.skip (h : Appends w out v (z + 1) res) : Appends w out (2 * v) z res := by
  obtain ⟨es, hres, hes, hhead⟩ := h
  have hv : 2 * v * 2 ^ z = v * 2 ^ (z + 1) := by ring
  exact ⟨es, hres, hv ▸ hes, fun e he => (Nat.le_succ z).trans (hhead e he)⟩

/-- A digit that is put out, with `w - 1` zeros at least to the next one. -/
theorem Appends.emit {d : Int} {v' : Nat} (h : Appends w (out ++ [pack d z]) v' (w - 1) res) (hw : 2 ≤ w)
    (hw' : w ≤ 16) (hz : z < 2 ^ 16) (hodd : d % 2 = 1) (hlt : d.natAbs < 2 ^ (w - 1)) (hv : (v : Int) = d + 2 ^ w * v') :
    Appends w out v z res := by
  obtain ⟨es, rfl, hes, hhead⟩ := h
  have htwo := mul_pow_sub_one (show w ≠ 0 by omega) (2 : Int)
  have hfit : 2 ^ (w - 1) ≤ 2 ^ 15 := Nat.pow_le_pow_right (by decide) (by omega)
  have hdigit := digitOf_pack (hlt.trans_le hfit) z
  have hzeros := zerosOf_pack d hz
  have hvalue : d + 2 * ((v' * 2 ^ (w - 1) : Nat) : Int) = v := by rw [hv, ← htwo]; push_cast; ring
  have hcons := hes.cons (e := pack d z) (by rwa [hdigit]) (by rwa [hdigit]) hhead (by rw [hdigit]; omega)
  rw [hdigit, hzeros, hvalue] at hcons
  refine ⟨pack d z :: es, List.append_assoc .., by exact_mod_cast hcons, ?_⟩
  rintro _ ⟨⟩
  exact hzeros.ge

end

/-! ### The loop of the wider windows (R216) -/

/-- What is left to recode at a position: the scalar above it, and the carry. -/
def windowRest (k : Nat) (carry : Bool) (pos : Nat) : Nat := k >>> pos + carry.toNat

/-- The zeros of an entry at a position: the first entry counts from the bottom, a later one from above the digit
before it. -/
def entryZeros (out : List Word) (pos : Nat) : Nat := if out.isEmpty then pos else pos - 1

/-- The digit of a window: its low `w` bits and the carry, as a signed number. -/
def signedDigit (w d : Nat) : Int := if d.testBit (w - 1) then (d : Int) - 2 ^ w else d

section
variable {carry : Bool} {pos d : Nat}

theorem windowRest_eq_zero (hpos : ¬ pos ≤ blen k) (hcarry : carry = true → pos ≤ blen k) :
    windowRest k carry pos = 0 := by
  have hk : k >>> pos = 0 := by
    rw [Nat.shiftRight_eq_div_pow, Nat.div_eq_of_lt (blen_le_iff.1 (Nat.le_of_not_le hpos))]
  rw [windowRest, hk, Bool.eq_false_iff.2 (mt hcarry hpos)]
  rfl

/-- A bit that agrees with the carry is passed over. -/
theorem windowRest_of_bit_eq (h : k.testBit pos = carry) : windowRest k carry pos = 2 * windowRest k carry (pos + 1) := by
  rw [windowRest, windowRest, Nat.shiftRight_succ, ← h, Nat.testBit_eq_decide_div_mod_eq, ← Nat.shiftRight_eq_div_pow]
  rcases Nat.mod_two_eq_zero_or_one (k >>> pos) with h0 | h1
  · simp only [h0, zero_ne_one, decide_false, Bool.toNat_false]; omega
  · simp only [h1, decide_true, Bool.toNat_true]; omega

theorem windowDigit_eq (w k : Nat) (carry : Bool) : windowDigit w k carry = k % 2 ^ w + carry.toNat := by
  cases carry <;> rfl

/-- At a bit that differs from the carry, what is left is odd. -/
theorem windowRest_odd (h : k.testBit pos ≠ carry) : windowRest k carry pos % 2 = 1 := by
  rw [windowRest]
  rw [Nat.testBit_eq_decide_div_mod_eq, ← Nat.shiftRight_eq_div_pow] at h
  cases carry
  · simp only [ne_eq, decide_eq_false_iff_not, not_not] at h
    simp only [Bool.toNat_false]; omega
  · simp only [ne_eq, decide_eq_true_eq] at h
    simp only [Bool.toNat_true]; omega

/-- A window is the low `w` bits of what is left. -/
theorem windowRest_eq_windowDigit_add (w : Nat) : windowRest k carry pos =
    windowDigit w (k >>> pos) carry + 2 ^ w * (k >>> pos >>> w) := by
  have := Nat.mod_add_div (k >>> pos) (2 ^ w)
  rw [windowRest, windowDigit_eq, Nat.shiftRight_eq_div_pow _ w]
  omega

theorem windowDigit_odd (hw : 2 ≤ w) (h : k.testBit pos ≠ carry) : windowDigit w (k >>> pos) carry % 2 = 1 := by
  have hodd := windowRest_odd h
  have htwo := mul_pow_sub_one (show w ≠ 0 by omega) 2
  rwa [windowRest_eq_windowDigit_add w, ← htwo, Nat.mul_assoc, Nat.add_mul_mod_self_left] at hodd

/-- The carry never fills the window: with a carry the lowest bit is 0. -/
theorem windowDigit_lt (hw : 2 ≤ w) (h : k.testBit pos ≠ carry) : windowDigit w (k >>> pos) carry < 2 ^ w := by
  have hodd := windowDigit_odd hw h
  have htwo := mul_pow_sub_one (show w ≠ 0 by omega) 2
  have hmod := Nat.mod_lt (k >>> pos) (Nat.two_pow_pos w)
  have hcarry := Bool.toNat_le carry
  rw [windowDigit_eq] at hodd ⊢
  omega

/-- A window that carries on reaches no higher than the scalar. -/
theorem le_blen_of_carry (hw : 2 ≤ w) (h : k.testBit pos ≠ carry)
    (hcarry : (windowDigit w (k >>> pos) carry).testBit (w - 1) = true) : w ≤ blen (k >>> pos) := by
  have hge := Nat.ge_two_pow_of_testBit hcarry
  have hodd := windowDigit_odd hw h
  have htwo := two_pow_pred hw
  have hle := Nat.mod_le (k >>> pos) (2 ^ w)
  have hbit := Bool.toNat_le carry
  rw [windowDigit_eq] at hge hodd
  by_contra hlt
  have hsmall : k >>> pos < 2 ^ (w - 1) := blen_le_iff.1 (by omega)
  omega

theorem signedDigit_eq (w d : Nat) : signedDigit w d = d - 2 ^ w * (d.testBit (w - 1)).toNat := by
  unfold signedDigit
  split <;> simp_all

theorem signedDigit_odd (hw : 2 ≤ w) (hodd : d % 2 = 1) : signedDigit w d % 2 = 1 := by
  have htwo := mul_pow_sub_one (show w ≠ 0 by omega) (2 : Int)
  unfold signedDigit
  split <;> omega

theorem signedDigit_natAbs_lt (hw : 2 ≤ w) (hd : d < 2 ^ w) (hodd : d % 2 = 1) :
    (signedDigit w d).natAbs < 2 ^ (w - 1) := by
  obtain ⟨n, rfl⟩ : ∃ n, w = n + 2 := ⟨w - 2, by omega⟩
  have hhalf : 2 ^ (n + 2) = 2 * 2 ^ (n + 1) := Nat.pow_succ'
  have heven : 2 ^ (n + 1) = 2 * 2 ^ n := Nat.pow_succ'
  have hcast : (2 : Int) ^ (n + 2) = (2 ^ (n + 2) : Nat) := by push_cast; rfl
  unfold signedDigit
  rw [Nat.add_succ_sub_one]
  split
  · next h =>
    have hge := Nat.ge_two_pow_of_testBit h
    omega
  · next h =>
    have hlt : d < 2 ^ (n + 1) := Nat.lt_of_not_le fun hge =>
      h (Nat.testBit_of_two_pow_le_and_two_pow_add_one_gt hge hd)
    omega

theorem entryZeros_le (out : List Word) (pos : Nat) : entryZeros out pos ≤ pos := by
  unfold entryZeros
  split <;> omega

theorem entryZeros_succ {out : List Word} (hpos : out ≠ [] → 0 < pos) :
    entryZeros out (pos + 1) = entryZeros out pos + 1 := by
  cases out with
  | nil => rfl
  | cons e es => exact (Nat.sub_add_cancel (hpos (List.cons_ne_nil e es))).symm

theorem entryZeros_append_singleton (out : List Word) (e : Word) (pos : Nat) : entryZeros (out ++ [e]) pos = pos - 1 :=
  if_neg (by simp)

/-- One pass of the loop at a bit that differs from the carry: a digit goes out. -/
theorem windowLoop_emit {n : Nat} {out : List Word} (hpos : pos ≤ blen k) (h : k.testBit pos ≠ carry) :
    windowLoop w (n + 1) k carry pos out =
      windowLoop w n (k >>> pos) ((windowDigit w (k >>> pos) carry).testBit (w - 1)) w
        (out ++ [pack (signedDigit w (windowDigit w (k >>> pos) carry)) (entryZeros out pos)]) := by
  rw [windowLoop, if_pos hpos, if_neg h]
  rfl

/-- What is left splits into the signed digit and what is left above the window. -/
theorem windowRest_eq_signedDigit_add (w : Nat) :
    (windowRest k carry pos : Int) = signedDigit w (windowDigit w (k >>> pos) carry) +
      2 ^ w * windowRest (k >>> pos) ((windowDigit w (k >>> pos) carry).testBit (w - 1)) w := by
  rw [windowRest_eq_windowDigit_add w, signedDigit_eq, windowRest]
  push_cast
  ring

/-- The loop of R216 recodes what is left, at the position it has reached: every pass moves up the scalar. -/
theorem windowLoop_appends (hw : 2 ≤ w) (hw' : w ≤ 16) {n : Nat} {out : List Word} (hfuel : blen k + 2 ≤ n + pos)
    (hcarry : carry = true → pos ≤ blen k) (hk : blen k < 2 ^ 16) (hout : out ≠ [] → w ≤ pos) :
    Appends w out (windowRest k carry pos) (entryZeros out pos) (windowLoop w n k carry pos out) := by
  induction n generalizing k carry pos out with
  | zero =>
    rw [windowRest_eq_zero (by omega) hcarry]
    exact appends_nil w out _
  | succ n ih =>
    by_cases hpos : pos ≤ blen k
    · by_cases hbit : k.testBit pos = carry
      · have hcarry' : carry = true → pos + 1 ≤ blen k := fun hc => by
          by_contra hge
          rw [testBit_eq_false_of_blen_le (by omega)] at hbit
          exact Bool.false_ne_true (hbit.trans hc)
        rw [windowLoop, if_pos hpos, if_pos hbit, windowRest_of_bit_eq hbit]
        refine Appends.skip ?_
        rw [← entryZeros_succ fun h => (Nat.zero_lt_two.trans_le hw).trans_le (hout h)]
        exact ih (by omega) hcarry' hk fun h => (hout h).trans (Nat.le_succ _)
      · have hd := windowDigit_lt hw hbit
        have hodd := windowDigit_odd hw hbit
        have hlen := blen_shiftRight k pos
        have hz : entryZeros out pos < 2 ^ 16 := (entryZeros_le out pos).trans_lt (hpos.trans_lt hk)
        rw [windowLoop_emit hpos hbit]
        refine Appends.emit ?_ hw hw' hz (signedDigit_odd hw hodd) (signedDigit_natAbs_lt hw hd hodd)
          (windowRest_eq_signedDigit_add w)
        have hnext := fun e =>
          ih (pos := w) (out := out ++ [e]) (by omega) (le_blen_of_carry hw hbit) (by omega) fun _ => le_rfl
        simp only [entryZeros_append_singleton] at hnext
        exact hnext _
    · rw [windowRest_eq_zero hpos hcarry, windowLoop, if_neg hpos]
      exact appends_nil w out _

end

/-! ### The loop of the width 2 (R215) -/

/-- What is left to recode at a position: `3k` and `k` above it, `2k` in all. -/
def compactRest (k i : Nat) : Nat := (3 * k) >>> i - k >>> i

/-- The digit of R215 at a position where `3k` and `k` differ. -/
def compactDigit (k i : Nat) : Int := if k.testBit i then -1 else 1

section
variable {i : Nat}

/-- Above any position, `3k` is three times `k` and a carry of at most 2. -/
theorem three_mul_shiftRight (k i : Nat) : ∃ c ≤ 2, (3 * k) >>> i = 3 * (k >>> i) + c := by
  have hlt := Nat.mod_lt k (Nat.two_pow_pos i)
  have hsplit : 3 * k = 2 ^ i * (3 * (k / 2 ^ i)) + 3 * (k % 2 ^ i) := by
    conv_lhs => rw [← Nat.div_add_mod k (2 ^ i)]
    ring
  refine ⟨3 * (k % 2 ^ i) / 2 ^ i, Nat.le_of_lt_succ (Nat.div_lt_of_lt_mul (by omega)), ?_⟩
  rw [Nat.shiftRight_eq_div_pow, Nat.shiftRight_eq_div_pow]
  conv_lhs => rw [hsplit]
  exact Nat.mul_add_div (Nat.two_pow_pos i) _ _

theorem testBit_diff (k i : Nat) :
    (3 * k ^^^ k).testBit i = decide ((3 * k) >>> i % 2 ≠ k >>> i % 2) := by
  rw [Nat.testBit_xor, Nat.testBit_eq_decide_div_mod_eq, Nat.testBit_eq_decide_div_mod_eq, ← Nat.shiftRight_eq_div_pow,
    ← Nat.shiftRight_eq_div_pow]
  rcases Nat.mod_two_eq_zero_or_one ((3 * k) >>> i) with h | h <;>
    rcases Nat.mod_two_eq_zero_or_one (k >>> i) with h' | h' <;> rw [h, h'] <;> rfl

/-- A position where `3k` and `k` agree is passed over. -/
theorem compactRest_of_bit_clear (h : (3 * k ^^^ k).testBit i = false) :
    compactRest k i = 2 * compactRest k (i + 1) := by
  rw [testBit_diff, decide_eq_false_iff_not, not_not] at h
  rw [compactRest, compactRest, Nat.shiftRight_succ, Nat.shiftRight_succ]
  omega

section
variable (h : (3 * k ^^^ k).testBit i = true)
include h

/-- Where they differ, they agree at the next position: no two digits are adjacent. -/
theorem testBit_diff_succ : (3 * k ^^^ k).testBit (i + 1) = false := by
  obtain ⟨c, hc, heq⟩ := three_mul_shiftRight k i
  rw [testBit_diff, decide_eq_true_eq] at h
  rw [testBit_diff, Nat.shiftRight_succ, Nat.shiftRight_succ, decide_eq_false_iff_not, not_not]
  have hcarry : c = 1 := by omega
  rcases Nat.mod_two_eq_zero_or_one (k >>> i) with heven | hodd
  · have hhalf : (3 * k) >>> i / 2 = 3 * (k >>> i / 2) := by omega
    omega
  · have hhalf : (3 * k) >>> i / 2 = 3 * (k >>> i / 2) + 2 := by omega
    omega

/-- Where they differ, the digit and what is left two positions up. -/
theorem compactRest_of_bit_set : (compactRest k i : Int) = compactDigit k i + 2 ^ 2 * compactRest k (i + 2) := by
  have hnext : compactRest k (i + 1) = 2 * compactRest k (i + 2) := compactRest_of_bit_clear (testBit_diff_succ h)
  obtain ⟨c, hc, heq⟩ := three_mul_shiftRight k i
  rw [testBit_diff, decide_eq_true_eq] at h
  have hdigit : compactDigit k i = if k >>> i % 2 = 1 then -1 else 1 := by
    rw [compactDigit, Nat.testBit_eq_decide_div_mod_eq, ← Nat.shiftRight_eq_div_pow]
    simp only [decide_eq_true_eq]
  have hstep : (compactRest k i : Int) = compactDigit k i + 2 * compactRest k (i + 1) := by
    rw [hdigit, compactRest, compactRest, Nat.shiftRight_succ, Nat.shiftRight_succ]
    split <;> omega
  rw [hstep, hnext]
  push_cast
  ring

end

/-- At the top bit of `3k` there is only that bit. -/
theorem shiftRight_top (hk : k ≠ 0) :
    (3 * k) >>> (blen (3 * k) - 1) = 1 ∧ k >>> (blen (3 * k) - 1) = 0 := by
  have hlen := blen_of_ne_zero (Nat.mul_ne_zero three_ne_zero hk)
  have hlt := lt_two_pow_blen (3 * k)
  have hge : 2 ^ (blen (3 * k) - 1) ≤ 3 * k := Nat.le_of_not_lt fun h => by have := blen_le_iff.2 h; omega
  have htwo := mul_pow_sub_one (show blen (3 * k) ≠ 0 by omega) 2
  rw [Nat.shiftRight_eq_div_pow, Nat.shiftRight_eq_div_pow]
  exact ⟨Nat.div_eq_of_lt_le (by omega) (by omega), Nat.div_eq_of_lt (by omega)⟩

/-- The loop of R215 recodes what is left, from any position up to the top bit of `3k`. -/
theorem compactLoop_appends (hk : k ≠ 0) {n zeros : Nat} {out : List Word} (hi : i ≤ blen (3 * k) - 1)
    (hfuel : blen (3 * k) - 1 ≤ n + i) (hz : zeros + (blen (3 * k) - 1 - i) < 2 ^ 16) :
    Appends 2 out (compactRest k i) zeros (compactLoop k (3 * k ^^^ k) (blen (3 * k) - 1) n i zeros out) := by
  obtain ⟨htop, htop'⟩ := shiftRight_top hk
  have hdiff : (3 * k ^^^ k).testBit (blen (3 * k) - 1) = true := by rw [testBit_diff, htop, htop']; rfl
  have last : ∀ {zeros} {out : List Word}, zeros < 2 ^ 16 →
      Appends 2 out (compactRest k (blen (3 * k) - 1)) zeros (out ++ [pack 1 zeros]) := fun {zeros out} hz => by
    rw [compactRest, htop, htop']
    exact (appends_nil 2 (out ++ [pack 1 zeros]) 1).emit le_rfl (by decide) hz rfl (by decide) rfl
  induction n generalizing i zeros out with
  | zero =>
    obtain rfl : i = blen (3 * k) - 1 := by omega
    exact last (by omega)
  | succ n ih =>
    by_cases hlt : i < blen (3 * k) - 1
    · rw [compactLoop, if_pos hlt]
      cases hbit : (3 * k ^^^ k).testBit i with
      | true =>
        have hne : i + 1 ≠ blen (3 * k) - 1 := fun h => by
          rw [← h, testBit_diff_succ hbit] at hdiff
          exact Bool.false_ne_true hdiff
        have hodd : compactDigit k i % 2 = 1 := by unfold compactDigit; split <;> rfl
        have hone : (compactDigit k i).natAbs < 2 ^ (2 - 1) := by unfold compactDigit; split <;> decide
        exact (ih (by omega) (by omega) (by omega)).emit le_rfl (by decide) (by omega) hodd hone
          (compactRest_of_bit_set hbit)
      | false =>
        rw [if_neg Bool.false_ne_true, compactRest_of_bit_clear hbit]
        exact (ih (by omega) (by omega) (by omega)).skip
    · obtain rfl : i = blen (3 * k) - 1 := by omega
      rw [compactLoop, if_neg hlt]
      exact last (by omega)

end

/-! ### The recoding of a scalar (R214) -/

theorem Appends.recodes {v : Nat} {res : List Word} (h : Appends w [] v 0 res) : Recodes w v res := by
  obtain ⟨es, rfl, hes, -⟩ := h
  rwa [pow_zero, Nat.mul_one] at hes

theorem compactNaf_recodes (hk : blen k ≤ 512) : Recodes 2 k (compactNaf k) := by
  unfold compactNaf
  split
  · next h => rw [h]; exact recodes_nil 2
  · next h =>
    have hlen := blen_three_mul_le k
    have hpos : 1 ≤ blen (3 * k) - 1 := by
      by_contra hlt
      have := blen_le_iff.1 (show blen (3 * k) ≤ 1 by omega)
      omega
    have hrest : compactRest k 1 = k := by
      rw [compactRest, Nat.shiftRight_eq_div_pow, Nat.shiftRight_eq_div_pow]; omega
    have hloop := compactLoop_appends h (n := blen (3 * k)) (zeros := 0) (out := []) hpos (by omega) (by omega)
    rw [hrest] at hloop
    exact hloop.recodes

/-- The recoding of a 512-bit scalar at any width stands for the scalar, in the digits R214 allows. -/
theorem windowNaf_recodes (hw : 2 ≤ w) (hw' : w ≤ 16) (hk : blen k ≤ 512) : Recodes w k (windowNaf w k) := by
  unfold windowNaf
  split
  · next h => rw [h]; exact compactNaf_recodes hk
  · split
    · next h => rw [h]; exact recodes_nil w
    · exact (windowLoop_appends hw hw' (carry := false) (pos := 0) (out := []) le_rfl nofun (by omega)
        fun h => absurd rfl h).recodes

end
end Sys2Proof.Machine

/-! Proofs. Wherever the engine's addition adds the multiples of a point, the table holds the odd multiples and the scan of
a recoding ends at the multiple the recoding stands for. -/

namespace Sys2Proof.Machine

/-- The points of all multiples of one point, as the engine adds and negates them. -/
structure Multiples (C : CurveCtx) (M : Int → Point) : Prop where
  zero : M 0 = Point.identity
  neg : ∀ v, pneg (M v) = M (-v)
  add : ∀ u v, padd C (M u) (M v) = .ok (M (u + v))

section
variable {C : CurveCtx} {M : Int → Point} {w e : Nat}

/-! ### The table (R219) -/

/-- The odd multiples a table of width `w` holds. -/
def oddTable (M : Int → Point) (w : Nat) : List Point := (List.range (2 ^ (w - 2))).map fun j : Nat => M (2 * j + 1)

/-- Their negatives. -/
def negTable (M : Int → Point) (w : Nat) : List Point := (oddTable M w).map pneg

theorem oddTable_getD {d : Nat} (hw : 2 ≤ w) (hodd : d % 2 = 1) (hlt : d < 2 ^ (w - 1)) :
    (oddTable M w).getD (d >>> 1) Point.identity = M d := by
  have htwo := two_pow_pred hw
  have hhalf : d >>> 1 = d / 2 := Nat.shiftRight_eq_div_pow d 1
  have hidx : d / 2 < 2 ^ (w - 2) := by omega
  have hback : 2 * ((d / 2 : Nat) : Int) + 1 = d := by omega
  rw [hhalf, oddTable, List.getD_eq_getElem?_getD, List.getElem?_map, List.getElem?_range hidx, ← hback]
  rfl

section
variable (hM : Multiples C M)
include hM

theorem Multiples.double (v : Int) : pdbl C (M v) = .ok (M (2 * v)) := by
  rw [pdbl, hM.add, two_mul]

theorem Multiples.ptp2 (v : Int) : ptp2 C (M v) e = .ok (M (v * 2 ^ e)) := by
  induction e generalizing v with
  | zero => rw [pow_zero, mul_one]; rfl
  | succ e ih => rw [Machine.ptp2, hM.double, except_ok_bind, ih, pow_succ', mul_left_comm, mul_assoc]

theorem Multiples.ptwp (u v : Int) : ptwp C (M u) (M v) = .ok (M (2 * u + v)) := by
  rw [Machine.ptwp, hM.double, except_ok_bind, hM.add]

theorem Multiples.oddMultiples (n : Nat) (t : Int) :
    oddMultiples C (M 2) n (M t) = .ok ((List.range n).map fun j : Nat => M (t + 2 * (j + 1))) := by
  induction n generalizing t with
  | zero => rfl
  | succ n ih =>
    have hnext : ∀ j : Nat, t + 2 + 2 * ((j : Int) + 1) = t + 2 * ((j + 1 : Nat) + 1) := fun j => by push_cast; ring
    rw [Machine.oddMultiples, hM.add, except_ok_bind, ih, except_ok_bind, List.range_succ_eq_map, List.map_cons,
      List.map_map]
    simp only [hnext, except_pure_eq]
    rfl

/-- The table of the point itself holds its odd multiples and their negatives. -/
theorem Multiples.precompute (w : Nat) : precompute C (M 1) w = .ok (oddTable M w, negTable M w) := by
  refine precompute_eq_ok.2 ⟨?_, rfl⟩
  obtain ⟨n, hn⟩ : ∃ n, 2 ^ (w - 2) = n + 1 := Nat.exists_eq_succ_of_ne_zero (Nat.two_pow_pos _).ne'
  unfold precomputePos oddTable
  rw [hn]
  split
  · next h =>
    obtain rfl : n = 0 := by omega
    rfl
  · have hodd : ∀ j : Nat, (1 : Int) + 2 * (j + 1) = 2 * (j + 1 : Nat) + 1 := fun j => by push_cast; ring
    rw [hM.double, except_ok_bind, mul_one, Nat.add_sub_cancel, hM.oddMultiples, except_ok_bind, List.range_succ_eq_map,
      List.map_cons, List.map_map]
    simp only [hodd]
    rfl

theorem Multiples.tableEntry {d : Int} (hw : 2 ≤ w) (hodd : d % 2 = 1) (hlt : d.natAbs < 2 ^ (w - 1)) :
    tableEntry (oddTable M w) (negTable M w) d = M d := by
  have habs : d.natAbs % 2 = 1 := by omega
  have hentry := oddTable_getD (M := M) hw habs hlt
  unfold Machine.tableEntry
  split
  · next hneg =>
    have hid : pneg Point.identity = Point.identity := rfl
    rw [negTable, ← hid, List.getD_map, hentry, hM.neg]
    congr 1
    omega
  · next hpos =>
    rw [hentry]
    congr 1
    omega

/-! ### The scan (R218) -/

theorem Multiples.scanDigit {d : Word} (hw : 2 ≤ w) (hodd : digitOf d % 2 = 1) (hlt : (digitOf d).natAbs < 2 ^ (w - 1))
    (v : Int) : scanDigit C (oddTable M w) (negTable M w) (M v) d = .ok (M ((digitOf d + 2 * v) * 2 ^ zerosOf d)) := by
  rw [Machine.scanDigit, hM.tableEntry hw hodd hlt, hM.ptwp, except_ok_bind, hM.ptp2, add_comm]

end

theorem scanDigits_cons {T N : List Point} (d : Word) (ds : List Word) (R : Point) :
    scanDigits C T N (d :: ds) R = scanDigit C T N R d >>= scanDigits C T N ds := rfl

theorem scanDigits_append_singleton {T N : List Point} (ds : List Word) (d : Word) (R : Point) :
    scanDigits C T N (ds ++ [d]) R = scanDigits C T N ds R >>= fun S => scanDigit C T N S d := by
  induction ds generalizing R with
  | nil =>
    change (scanDigit C T N R d >>= fun S => .ok S) = scanDigit C T N R d
    cases scanDigit C T N R d <;> rfl
  | cons d' ds ih =>
    rw [List.cons_append, scanDigits_cons, scanDigits_cons]
    cases scanDigit C T N R d' with
    | error c => rfl
    | ok S => exact ih S

section
variable (hM : Multiples C M) (hw : 2 ≤ w)
include hM hw

/-- Digit by digit from the top, the scan ends at the value of the array. -/
theorem Multiples.scanDigits {ds : List Word} (hds : ∀ d ∈ ds, digitOf d % 2 = 1 ∧ (digitOf d).natAbs < 2 ^ (w - 1)) :
    scanDigits C (oddTable M w) (negTable M w) ds.reverse Point.identity = .ok (M (nafValue ds)) := by
  induction ds with
  | nil => rw [nafValue_nil, hM.zero]; rfl
  | cons d ds ih =>
    obtain ⟨⟨hodd, hlt⟩, hds⟩ := List.forall_mem_cons.1 hds
    rw [List.reverse_cons, scanDigits_append_singleton, ih hds, except_ok_bind, hM.scanDigit hw hodd hlt, nafValue_cons]

end

/-- Without its top bit a number is its remainder. -/
theorem xor_top_bit {n i : Nat} (h : n / 2 ^ i = 1) : n ^^^ 2 ^ i = n % 2 ^ i := by
  have hdiv : (n ^^^ 2 ^ i) / 2 ^ i = 0 := by
    rw [Nat.xor_div_two_pow, h, Nat.div_self (Nat.two_pow_pos i), Nat.xor_self]
  have hmod : (n ^^^ 2 ^ i) % 2 ^ i = n % 2 ^ i := by rw [Nat.xor_mod_two_pow, Nat.mod_self, Nat.xor_zero]
  rw [← Nat.div_add_mod (n ^^^ 2 ^ i) (2 ^ i), hdiv, hmod, Nat.mul_zero, Nat.zero_add]

/-- The second of the two multiples whose sum is a top digit `n` moved up to the top of the table's range (R218). -/
def lowMultiple (w n : Nat) : Nat := (n ^^^ 2 ^ (blen n - 1)) <<< (w - blen n) + 1

section
variable {n : Nat} (hne : n ≠ 0) (hsmall : 4 * n < 2 ^ w)
include hne hsmall

theorem blen_add_two_le : blen n + 2 ≤ w := by
  have hlen := blen_of_ne_zero hne
  have hge : ¬ n < 2 ^ (blen n - 1) := fun h => by have := blen_le_iff.2 h; omega
  have hfour : 2 ^ (blen n - 1 + 2) = 2 ^ (blen n - 1) * 4 := pow_add ..
  have hpow : 2 ^ (blen n - 1 + 2) < 2 ^ w := by omega
  have := (Nat.pow_lt_pow_iff_right Nat.one_lt_two).1 hpow
  omega

/-- The two multiples add to the digit, moved up. -/
theorem two_pow_add_lowMultiple : 2 ^ (w - 1) + lowMultiple w n = n * 2 ^ (w - blen n) + 1 := by
  have hw := blen_add_two_le hne hsmall
  have hlen := blen_of_ne_zero hne
  have hlt := lt_two_pow_blen n
  have hge : ¬ n < 2 ^ (blen n - 1) := fun h => by have := blen_le_iff.2 h; omega
  have htwo := mul_pow_sub_one (show blen n ≠ 0 by omega) 2
  have htop : n / 2 ^ (blen n - 1) = 1 := Nat.div_eq_of_lt_le (by omega) (by omega)
  have hsplit : 2 ^ (blen n - 1) + n % 2 ^ (blen n - 1) = n := by
    have := Nat.div_add_mod n (2 ^ (blen n - 1))
    rw [htop] at this
    omega
  have hpow : 2 ^ (w - 1) = 2 ^ (blen n - 1) * 2 ^ (w - blen n) := by rw [← Nat.pow_add]; congr 1; omega
  rw [lowMultiple, xor_top_bit htop, Nat.shiftLeft_eq, hpow, ← Nat.add_assoc, ← Nat.add_mul, hsplit]

theorem lowMultiple_odd : lowMultiple w n % 2 = 1 := by
  have hw := blen_add_two_le hne hsmall
  have hpow := mul_pow_sub_one (show w - blen n ≠ 0 by omega) 2
  rw [lowMultiple, Nat.shiftLeft_eq, ← hpow, Nat.mul_left_comm]
  omega

theorem lowMultiple_lt : lowMultiple w n < 2 ^ (w - 1) := by
  have hw := blen_add_two_le hne hsmall
  have hsum := two_pow_add_lowMultiple hne hsmall
  have htwo := mul_pow_sub_one (show w ≠ 0 by omega) 2
  have hscale : 2 ^ 1 ≤ 2 ^ (w - blen n) := Nat.pow_le_pow_right Nat.zero_lt_two (by omega)
  have htop : (n + 1) * 2 ^ (w - blen n) ≤ 2 ^ w :=
    (Nat.mul_le_mul_right _ (lt_two_pow_blen n)).trans_eq (by rw [← Nat.pow_add]; congr 1; omega)
  rw [Nat.add_mul] at htop
  omega

end

section
variable (hM : Multiples C M) (hw : 2 ≤ w)
include hM hw

/-- The top digit and the doublings left to do after it come to the digit and all its zeros. -/
theorem Multiples.topDigit {d : Word} (hodd : digitOf d % 2 = 1) (hlt : (digitOf d).natAbs < 2 ^ (w - 1))
    (hpos : 0 < digitOf d) (hgap : w - 1 ≤ zerosOf d) :
    (topDigit C (oddTable M w) (negTable M w) w d >>= fun top => Machine.ptp2 C top.1 top.2) =
      .ok (M (digitOf d * 2 ^ zerosOf d)) := by
  obtain ⟨n, hn⟩ : ∃ n : Nat, digitOf d = n := ⟨(digitOf d).toNat, by omega⟩
  have hn' : (digitOf d).natAbs = n := by omega
  have hnodd : n % 2 = 1 := by omega
  unfold Machine.topDigit
  simp only [hn', if_neg (not_lt.2 hpos.le)]
  split
  · next hsmall =>
    have hne : n ≠ 0 := by omega
    have hlen := blen_of_ne_zero hne
    have htwo := two_pow_pred hw
    have hpos := Nat.two_pow_pos (w - 2)
    have hsum : ((2 ^ (w - 1) - 1 : Nat) : Int) + lowMultiple w n = n * 2 ^ (w - blen n) := by
      have hnat : 2 ^ (w - 1) - 1 + lowMultiple w n = n * 2 ^ (w - blen n) := by
        have := two_pow_add_lowMultiple hne hsmall
        omega
      exact_mod_cast hnat
    have hzeros : w - blen n + (zerosOf d - (w - blen n)) = zerosOf d := by omega
    rw [← lowMultiple, oddTable_getD hw (by omega) (by omega),
      oddTable_getD hw (lowMultiple_odd hne hsmall) (lowMultiple_lt hne hsmall), hM.add, except_ok_bind]
    simp only [except_pure_eq, except_ok_bind]
    rw [hM.ptp2, hsum, mul_assoc, ← pow_add, hzeros, hn]
  · rw [oddTable_getD hw hnodd (hn' ▸ hlt), except_ok_bind, hM.ptp2, hn]

/-- The scan of a recoding ends at the multiple the recoding stands for. -/
theorem Multiples.scan {v : Int} {es : List Word} (hes : Recodes w v es) :
    scan C (oddTable M w) (negTable M w) w es.reverse = .ok (M v) := by
  have hdigits := hM.scanDigits hw hes.digits
  rw [hes.value] at hdigits
  rcases hrev : es.reverse with - | ⟨d, - | ⟨d', ds⟩⟩ <;> rw [hrev] at hdigits
  · exact hdigits
  · exact hdigits
  · obtain rfl : es = (d' :: ds).reverse ++ [d] := by rw [← List.reverse_cons, ← hrev, List.reverse_reverse]
    obtain ⟨hodd, hlt⟩ := hes.digits d (by simp)
    have hpos := hes.top d (by simp)
    have hgap := hes.gaps d (by rw [List.tail_append_of_ne_nil (by simp)]; simp)
    have htop := hM.topDigit hw hodd hlt hpos hgap
    rw [scanDigits_cons, ← hM.zero, hM.scanDigit hw hodd hlt, except_ok_bind, mul_zero, add_zero] at hdigits
    rw [Machine.scan, ← bind_assoc, htop, except_ok_bind, hdigits]

end

/-- The scan of R218 computes the scalar multiple. -/
theorem Multiples.mulpos (hM : Multiples C M) {k : Nat} (hk : blen k ≤ 512) :
    ∃ r, mulpos C (M 1) k = .ok r ∧ r.point = M k ∧ r.naf = windowNaf r.width k := by
  obtain ⟨hw, hw'⟩ := scalarWidth_bounds k
  have hscan := hM.scan hw (windowNaf_recodes hw (hw'.trans (by decide)) hk)
  exact ⟨⟨M k, scalarWidth k, oddTable M _, negTable M _, windowNaf (scalarWidth k) k⟩,
    mulpos_eq_ok.2 ⟨rfl, rfl, hM.precompute _, hscan⟩, rfl, rfl⟩

end

/-- Settles O53: the multiples of a group element's point are added and negated by the engine. -/
theorem scanComputesScalarMultiple : Obligations.ScanComputesScalarMultiple := by
  intro A _ C φ hzero hneg hadd g k hk
  have hM : Multiples C fun v => φ (v • g) := {
    zero := by rw [zero_smul, hzero]
    neg := fun v => by rw [hneg, neg_smul]
    add := fun u v => by rw [hadd, add_smul] }
  have hscan := hM.mulpos (blen_le_iff.2 hk)
  simpa only [one_smul, natCast_zsmul] using hscan

end Sys2Proof.Machine

/-! Proofs. What the point commands write, and that they write nothing else: each command is its checks, which answer the
source registers, then its function where it has a value, then one write. -/

namespace Sys2Proof.Machine

section
variable {s : State} {i : Instr}

/-! ### A command whose checks pass -/

section
variable {ra rb : PReg} {fa fb : FReg} (hfv : s.fv = true) (hcv : s.cv = true)
include hfv hcv

/-- With its point source valid, a command is the rest of its work on the source's contents. -/
theorem exec_pointSource {k : PointReg → Attempt} (ha : s.pval[ra] = true)
    (hexec : exec i s = finish i s (s.pointSource ra >>= k)) : exec i s = finish i s (k s.p[ra]) := by
  rw [hexec, pointSource_eq_ok.2 ⟨⟨hfv, hcv⟩, ha, rfl⟩, except_ok_bind]

/-- With both point sources valid, a command is the rest of its work on their contents. -/
theorem exec_pointSources {k : PointReg × PointReg → Attempt} (ha : s.pval[ra] = true) (hb : s.pval[rb] = true)
    (hexec : exec i s = finish i s (s.pointSources ra rb >>= k)) :
    exec i s = finish i s (k (s.p[ra], s.p[rb])) := by
  rw [hexec, pointSources_eq_ok.2 ⟨⟨hfv, hcv⟩, ha, hb, rfl⟩, except_ok_bind]

/-- With its field source valid, a point command is the rest of its work on the source's contents. -/
theorem exec_curveFieldSource {k : FVal → Attempt} (ha : s.fval[fa] = true)
    (hexec : exec i s = finish i s (s.curveFieldSource fa >>= k)) : exec i s = finish i s (k s.f[fa]) := by
  rw [hexec, curveFieldSource_eq_ok.2 ⟨⟨hfv, hcv⟩, ha, rfl⟩, except_ok_bind]

/-- With both field sources valid, a point command is the rest of its work on their contents. -/
theorem exec_curveFieldSources {k : FVal × FVal → Attempt} (ha : s.fval[fa] = true) (hb : s.fval[fb] = true)
    (hexec : exec i s = finish i s (s.curveFieldSources fa fb >>= k)) :
    exec i s = finish i s (k (s.f[fa], s.f[fb])) := by
  rw [hexec, curveFieldSources_eq_ok.2 ⟨⟨hfv, hcv⟩, ha, hb, rfl⟩, except_ok_bind]

/-- With its point and its scalar valid, a command is the rest of its work on their contents. -/
theorem exec_scalarSources {k : PointReg × FVal → Attempt} (ha : s.pval[ra] = true) (hb : s.fval[fb] = true)
    (hexec : exec i s = finish i s (s.scalarSources ra fb >>= k)) :
    exec i s = finish i s (k (s.p[ra], s.f[fb])) := by
  rw [hexec, scalarSources_eq_ok.2 ⟨⟨hfv, hcv⟩, ha, hb, rfl⟩, except_ok_bind]

end

/-- The end of a command that writes a point register: the write and the count, nothing else. -/
theorem finish_writeP {rd : PReg} {v w : PointReg} (h : v = w) : finish i s (.ok (s.writeP rd v)) =
    .next { s with p := s.p.set rd w, pval := s.pval.set rd true, cseq := s.cseq + 1 } := by rw [h]; rfl

/-- A command whose function has a value ends as it does on that value. -/
theorem finish_bind_ok {α : Type} {x : Except FaultCode α} {a : α} (h : x = .ok a) (k : α → Attempt) :
    finish i s (x >>= k) = finish i s (k a) := by
  rw [h, except_ok_bind]

/-- The negative of a point register's point, as register contents (R173). -/
theorem pneg_toReg (P : PointReg) : (pneg P.val).toReg = ⟨P.x, P.x ^^^ P.y⟩ := by
  simp only [pneg, Point.toReg, PointReg.val, BitVec.ofNat_toNat, BitVec.setWidth_eq, BitVec.ofNat_xor]

theorem toNat_eq_zero_iff {k : FVal} : k.toNat = 0 ↔ k = 0 := (not_iff_not.1 scalar_ne_zero_iff).symm

/-- The identity is held as a zeroised register (R27). -/
theorem val_eq_identity_iff {P : PointReg} : P.val = Point.identity ↔ P = ⟨0, 0⟩ := by
  cases P
  simp only [PointReg.val, Point.identity, Point.mk.injEq, PointReg.mk.injEq, toNat_eq_zero_iff]

theorem pcompress_identity {C : CurveCtx} : pcompress C Point.identity = .ok 0 := rfl

/-! ### The value each command writes -/

/-- Settles O25: one write of the destination after the checks. -/
theorem pointMovementResults : Obligations.PointMovementResults := by
  intro s hfv hcv
  refine ⟨fun rd ra rb ha hb => ?pset, fun rd ra ha => ⟨?pgetx, ?pgety⟩, fun rd ra ha => ⟨?pmov, ?pneg⟩⟩
  case pset => exact (exec_curveFieldSources hfv hcv ha hb rfl).trans (finish_writeP rfl)
  case pgetx => exact (exec_pointSource hfv hcv ha rfl).trans (finish_writeF _)
  case pgety => exact (exec_pointSource hfv hcv ha rfl).trans (finish_writeF _)
  case pmov => exact (exec_pointSource hfv hcv ha rfl).trans (finish_writeP rfl)
  case pneg => exact (exec_pointSource hfv hcv ha rfl).trans (finish_writeP (pneg_toReg _))

/-- Settles O26: one write of `P[rd]` after the checks and the group law's function. -/
theorem groupLawResults : Obligations.GroupLawResults := by
  intro s rd ra rb imm R hfv hcv ha
  refine ⟨fun hb h => ?padd, fun h => ?pdbl, fun hb h => ?ptwp, fun h => ?ptp2⟩
  case padd => exact (exec_pointSources hfv hcv ha hb rfl).trans ((finish_bind_ok h _).trans (finish_writeP rfl))
  case pdbl => exact (exec_pointSource hfv hcv ha rfl).trans ((finish_bind_ok h _).trans (finish_writeP rfl))
  case ptwp =>
    exact (exec_pointSources hfv hcv ha hb rfl).trans
      ((finish_bind_ok (ptwp_eq_ok.2 h) _).trans (finish_writeP rfl))
  case ptp2 => exact (exec_pointSource hfv hcv ha rfl).trans ((finish_bind_ok h _).trans (finish_writeP rfl))

/-- Settles O27: one write of the destination after the checks and the function, which for the identity and for 0 is
the first branch of R176 and of R177. -/
theorem compressionResults : Obligations.CompressionResults := by
  intro s hfv hcv
  have pcmp : ∀ (rd : FReg) (ra : PReg) (c : Nat), s.pval[ra] = true → pcompress s.curveCtx s.p[ra].val = .ok c →
      exec (.pcmp rd ra) s = .next { s with
        f := s.f.set rd (BitVec.ofNat 512 c), fval := s.fval.set rd true, cseq := s.cseq + 1 } :=
    fun rd ra c ha h => (exec_pointSource hfv hcv ha rfl).trans ((finish_bind_ok h _).trans (finish_writeF _))
  have pexp : ∀ (rd : PReg) (ra : FReg) (R : Point), s.fval[ra] = true → pexpand s.curveCtx s.f[ra].toNat = .ok R →
      exec (.pexp rd ra) s = .next { s with
        p := s.p.set rd R.toReg, pval := s.pval.set rd true, cseq := s.cseq + 1 } :=
    fun rd ra R ha h => (exec_curveFieldSource hfv hcv ha rfl).trans ((finish_bind_ok h _).trans (finish_writeP rfl))
  exact ⟨pcmp, pexp, fun rd ra ha hid => pcmp rd ra 0 ha (by rw [val_eq_identity_iff.2 hid, pcompress_identity]),
    fun rd ra ha hzero => pexp rd ra Point.identity ha (if_pos hzero)⟩

/-- Settles O28: one write of `RES` after the checks. -/
theorem pointPredicateResults : Obligations.PointPredicateResults := by
  intro s ra rb hfv hcv ha
  refine ⟨fun hb => ?peq, ?pisid, ?pchk⟩
  case peq =>
    exact (exec_pointSources hfv hcv ha hb rfl).trans (finish_writeRes (resOfBool_eq_ite (by simp)))
  case pisid =>
    have hid : pisid s.p[ra].val = true ↔ s.p[ra].x = 0 ∧ s.p[ra].y = 0 :=
      by
      simp only [pisid, PointReg.val, Bool.and_eq_true, beq_iff_eq, toNat_eq_zero_iff]
    exact (exec_pointSource hfv hcv ha rfl).trans (finish_writeRes (resOfBool_eq_ite hid))
  case pchk => exact (exec_pointSource hfv hcv ha rfl).trans (finish_writeRes (resOfBool_eq_ite Iff.rfl))

/-- The operand of `PMUL` as register contents (R192). -/
theorem signedPoint_eq (neg : Bool) (P : PointReg) :
    signedPoint neg P = if neg then ⟨P.x, P.x ^^^ P.y⟩ else P := by
  rw [signedPoint, pneg_toReg]

/-- Settles O29: the branch for the scalar 0 writes `P[rd]` only, the scan writes table, NAF buffer and `P[rd]`. -/
theorem scalarMultiplicationResults : Obligations.ScalarMultiplicationResults := by
  intro s rd ra rb neg Q r hfv hcv ha hb
  refine ⟨fun hk => ?zero, fun hk hQ h => ?pmul, fun h => ?mulpos⟩
  case zero =>
    refine (exec_scalarSources hfv hcv ha hb rfl).trans ?_
    dsimp only
    rw [if_pos (toNat_eq_zero_iff.2 hk)]
    exact finish_writeP rfl
  case pmul =>
    rw [← signedPoint_eq] at hQ
    subst hQ
    refine (exec_scalarSources hfv hcv ha hb rfl).trans ?_
    dsimp only
    rw [if_neg (scalar_ne_zero_iff.1 hk)]
    exact finish_bind_ok h _
  case mulpos => exact (exec_scalarSources hfv hcv ha hb rfl).trans (finish_bind_ok h _)

end
end Sys2Proof.Machine

/-! Proofs. The recoding and the table as rules: the NAF of every scalar, how many entries and how many zeros it can have,
the odd multiples in order, and the commands that write them. -/

namespace Sys2Proof.Machine

section
variable {w k : Nat} {e : Word} {es : List Word}

/-! ### The NAF of a scalar (R214) -/

theorem windowNaf_zero (w : Nat) : windowNaf w 0 = [] := by
  unfold windowNaf compactNaf
  simp

/-- Settles O50: both loops recode what is left (`windowNaf_recodes`), and an empty array stands for 0. -/
theorem nafStandsForScalar : Obligations.NafStandsForScalar := by
  intro w k hw hw' hk
  obtain ⟨value, digits, gaps, top⟩ := windowNaf_recodes hw hw' (blen_le_iff.2 hk)
  refine ⟨value, digits, gaps, top, fun hnil => ?_, fun hzero => hzero ▸ windowNaf_zero w⟩
  rw [hnil, nafValue_nil] at value
  exact Int.ofNat_eq_zero.1 value.symm

/-! ### The bounds of an array (R217)

A recoding of `n + 1` entries has its top digit at position `w * n` at least, and the digits below it take less than half
of that away. So the value bounds the number of entries, and the zeros before each of them. -/

/-- The entries above the first one recode what the first one leaves, and keep their distance. -/
theorem Recodes.tail {v : Int} (h : Recodes w v (e :: es)) :
    Recodes w (nafValue es) es ∧ v = (digitOf e + 2 * nafValue es) * 2 ^ zerosOf e ∧ ∀ e' ∈ es.head?, w - 1 ≤ zerosOf e' := by
  obtain ⟨value, digits, gaps, top⟩ := h
  refine ⟨⟨rfl, fun e' he' => digits e' (List.mem_cons_of_mem e he'), fun e' he' => gaps e' (List.mem_of_mem_tail he'),
    fun e' he' => top e' ?_⟩, ?_, fun e' he' => gaps e' (List.mem_of_mem_head? he')⟩
  · rw [List.getLast?_cons, he', Option.getD_some]
  · rw [← value, nafValue_cons]

/-- The lowest digit. -/
theorem Recodes.le_digit {v : Int} (h : Recodes w v (e :: es)) : -(2 ^ (w - 1) - 1) ≤ digitOf e := by
  obtain ⟨-, hlt⟩ := h.digits e List.mem_cons_self
  have hlt' : ((digitOf e).natAbs : Int) < 2 ^ (w - 1) := by exact_mod_cast hlt
  omega

/-- The least value of a recoding of `n + 1` entries (top digit 1, every other digit the lowest, every gap the shortest),
times `2^w - 1`, which sums its geometric series. -/
def scaledLeastValue (w n : Nat) : Int := 2 ^ (w - 1) * (2 ^ w) ^ n + (2 ^ (w - 1) - 1)

theorem scaledLeastValue_pos (w n : Nat) : 0 < scaledLeastValue w n := by
  have hhalf : (1 : Int) ≤ 2 ^ (w - 1) := one_le_pow₀ (by decide)
  have hprod : (0 : Int) < 2 ^ (w - 1) * (2 ^ w) ^ n := by positivity
  rw [scaledLeastValue]
  omega

theorem scaledLeastValue_zero (hw : 2 ≤ w) : scaledLeastValue w 0 = 2 ^ w - 1 := by
  have htwo := mul_pow_sub_one (show w ≠ 0 by omega) (2 : Int)
  rw [scaledLeastValue, pow_zero]
  omega

/-- A further entry multiplies by the window and takes the lowest digit away. -/
theorem scaledLeastValue_succ (w n : Nat) :
    scaledLeastValue w (n + 1) = 2 ^ w * scaledLeastValue w n - (2 ^ w - 1) * (2 ^ (w - 1) - 1) := by
  rw [scaledLeastValue, scaledLeastValue]
  ring

/-- A recoding is at least the least one of its length, moved up by the zeros before its first digit. -/
theorem Recodes.scaledLeastValue_le (hw : 2 ≤ w) {v : Int} (h : Recodes w v (e :: es)) :
    scaledLeastValue w es.length * 2 ^ zerosOf e ≤ (2 ^ w - 1) * v := by
  have htwo := mul_pow_sub_one (show w ≠ 0 by omega) (2 : Int)
  have hwindow : (0 : Int) ≤ 2 ^ w - 1 := sub_nonneg.2 (one_le_pow₀ (by decide))
  induction es generalizing e v with
  | nil =>
    have hd : 0 < digitOf e := h.top e rfl
    obtain ⟨-, rfl, -⟩ := h.tail
    rw [List.length_nil, scaledLeastValue_zero hw]
    refine mul_le_mul_of_nonneg_left (le_mul_of_one_le_left (by positivity) ?_) hwindow
    rw [nafValue_nil]
    omega
  | cons e' es ih =>
    have hlow := h.le_digit
    obtain ⟨htail, rfl, hgap⟩ := h.tail
    have hrest : scaledLeastValue w es.length * 2 ^ (w - 1) ≤ (2 ^ w - 1) * nafValue (e' :: es) :=
      (mul_le_mul_of_nonneg_left (pow_le_pow_right₀ (by decide) (hgap e' rfl)) (scaledLeastValue_pos w _).le).trans (ih htail)
    rw [← mul_assoc, List.length_cons, scaledLeastValue_succ]
    refine mul_le_mul_of_nonneg_right ?_ (by positivity)
    calc 2 ^ w * scaledLeastValue w es.length - (2 ^ w - 1) * (2 ^ (w - 1) - 1)
        = (2 ^ w - 1) * -(2 ^ (w - 1) - 1) + 2 * (scaledLeastValue w es.length * 2 ^ (w - 1)) := by rw [← htwo]; ring
      _ ≤ (2 ^ w - 1) * digitOf e + 2 * ((2 ^ w - 1) * nafValue (e' :: es)) :=
        add_le_add (mul_le_mul_of_nonneg_left hlow hwindow) (mul_le_mul_of_nonneg_left hrest (by decide))
      _ = (2 ^ w - 1) * (digitOf e + 2 * nafValue (e' :: es)) := by ring

/-- The number of entries after the first is bounded by the scalar's size. -/
theorem Recodes.two_pow_length_lt (hw : 2 ≤ w) (h : Recodes w k (e :: es)) :
    2 ^ (w * es.length + (w - 1)) < (2 ^ w - 1) * k := by
  have hhalf : (2 : Int) ≤ 2 ^ (w - 1) := le_self_pow₀ (by decide) (by omega)
  have hleast := le_mul_of_one_le_right (scaledLeastValue_pos w es.length).le
    (one_le_pow₀ (by decide) : (1 : Int) ≤ 2 ^ zerosOf e)
  have hlt : (2 : Int) ^ (w - 1) * (2 ^ w) ^ es.length < (2 ^ w - 1) * k := by
    have := hleast.trans (h.scaledLeastValue_le hw)
    rw [scaledLeastValue] at this
    omega
  rw [pow_add, pow_mul, mul_comm]
  zify [Nat.one_le_two_pow (n := w)]
  exact hlt

/-- The first entry's zeros are below the scalar. -/
theorem Recodes.two_pow_zeros_head_le (hw : 2 ≤ w) {v : Int} (h : Recodes w v (e :: es)) : 2 ^ zerosOf e ≤ v := by
  have hwindow : (0 : Int) < 2 ^ w - 1 := sub_pos.2 (one_lt_pow₀ (by decide) (by omega))
  have hmono : (2 : Int) ^ w - 1 ≤ scaledLeastValue w es.length := by
    have hprod : (2 : Int) ^ (w - 1) ≤ 2 ^ (w - 1) * (2 ^ w) ^ es.length :=
      le_mul_of_one_le_right (by positivity) (one_le_pow₀ (one_le_pow₀ (by decide)))
    have htwo := mul_pow_sub_one (show w ≠ 0 by omega) (2 : Int)
    rw [scaledLeastValue]
    omega
  exact le_of_mul_le_mul_left ((mul_le_mul_of_nonneg_right hmono (by positivity)).trans (h.scaledLeastValue_le hw)) hwindow

/-- No entry's zeros reach above the scalar: what is left to recode never grows. -/
theorem Recodes.two_pow_zeros_le (hw : 2 ≤ w) {v : Int} (h : Recodes w v es) : ∀ e ∈ es, 2 ^ zerosOf e ≤ v := by
  induction es generalizing v with
  | nil => nofun
  | cons e es ih =>
    refine List.forall_mem_cons.2 ⟨h.two_pow_zeros_head_le hw, fun e' he' => ?_⟩
    have hlow := h.le_digit
    obtain ⟨htail, rfl, hgap⟩ := h.tail
    cases es with
    | nil => cases he'
    | cons e'' es =>
      have hge : 2 ^ (w - 1) ≤ nafValue (e'' :: es) :=
        (pow_le_pow_right₀ (by decide) (hgap e'' rfl)).trans (htail.two_pow_zeros_head_le hw)
      have hpos : (0 : Int) < 2 ^ (w - 1) := by positivity
      calc 2 ^ zerosOf e' ≤ nafValue (e'' :: es) := ih htail e' he'
        _ ≤ digitOf e + 2 * nafValue (e'' :: es) := by omega
        _ ≤ _ := le_mul_of_one_le_right (by omega) (one_le_pow₀ (by decide))

/-- The zeros of an entry count positions of the scalar (R217). -/
theorem Recodes.zeros_lt_blen (hw : 2 ≤ w) (h : Recodes w k es) (he : e ∈ es) : zerosOf e < blen k := by
  have hle : 2 ^ zerosOf e ≤ k := by exact_mod_cast h.two_pow_zeros_le hw e he
  exact (Nat.pow_lt_pow_iff_right (by decide)).1 (hle.trans_lt (lt_two_pow_blen k))

/-- At width 2 an entry takes two positions of `3k` (R217). -/
theorem Recodes.length_le_of_two (h : Recodes 2 k es) : es.length ≤ blen (3 * k) / 2 := by
  cases es with
  | nil => exact Nat.zero_le _
  | cons e es =>
    have hpow := (h.two_pow_length_lt le_rfl).trans (lt_two_pow_blen (3 * k))
    have hlen := (Nat.pow_lt_pow_iff_right (by decide)).1 hpow
    rw [List.length_cons]
    omega

/-- At any width an entry but the last takes `w` positions of the scalar (R217). -/
theorem Recodes.length_le (hw : 2 ≤ w) (h : Recodes w k es) : es.length ≤ blen k / w + 1 := by
  cases es with
  | nil => exact Nat.zero_le _
  | cons e es =>
    have hpow : 2 ^ (w * es.length + (w - 1)) < 2 ^ (w + blen k) :=
      calc 2 ^ (w * es.length + (w - 1)) < (2 ^ w - 1) * k := h.two_pow_length_lt hw
        _ ≤ 2 ^ w * 2 ^ blen k := Nat.mul_le_mul (Nat.sub_le _ _) (lt_two_pow_blen k).le
        _ = 2 ^ (w + blen k) := (pow_add ..).symm
    have hlen := (Nat.pow_lt_pow_iff_right (by decide)).1 hpow
    refine Nat.succ_le_succ ((Nat.le_div_iff_mul_le (by omega)).2 ?_)
    rw [Nat.mul_comm]
    omega

/-- Settles O51: the bounds hold of any recoding of the scalar, and both fields of an entry keep what fits them. -/
theorem nafFitsItsBuffer : Obligations.NafFitsItsBuffer := by
  refine ⟨fun w k hw hw' hk => ?_, fun d z hd hz =>
    ⟨digitOf_pack (Nat.lt_succ_of_le hd) z, zerosOf_pack d (hz.trans_lt (by decide))⟩⟩
  have hblen : blen k ≤ 512 := blen_le_iff.2 hk
  have hnaf := windowNaf_recodes hw hw' hblen
  refine ⟨?width2, windowNaf_length_le hw hblen, fun _ => hnaf.length_le hw, fun e he => ?entry⟩
  case width2 =>
    rintro rfl
    have htriple := blen_three_mul_le k
    exact ⟨hnaf.length_le_of_two, by omega⟩
  case entry =>
    obtain ⟨-, hdigit⟩ := hnaf.digits e he
    have hzeros := hnaf.zeros_lt_blen hw he
    exact ⟨by omega, Nat.le_sub_one_of_lt hdigit⟩

end

/-! ### The table (R219) -/

section
variable {C : CurveCtx} {P D A B : Point}

/-- Each of the further multiples is the one before plus `2P`. -/
theorem padd_of_oddMultiples {n j : Nat} {Ts : List Point} (h : oddMultiples C D n P = .ok Ts)
    (hA : (P :: Ts)[j]? = some A) (hB : (P :: Ts)[j + 1]? = some B) : padd C A D = .ok B := by
  induction n generalizing P Ts j with
  | zero => cases h; cases hB
  | succ n ih =>
    simp only [oddMultiples, except_bind_eq_ok] at h
    obtain ⟨Q, hQ, Qs, hQs, h⟩ := h
    cases h
    cases j with
    | zero => cases hA; cases hB; exact hQ
    | succ j => exact ih hQs hA hB

/-- Settles O52: a table of one entry has no later one, any other is `P` and the chain of `oddMultiples`. -/
theorem precomputeBuildsOddMultiples : Obligations.PrecomputeBuildsOddMultiples := by
  intro C P w T N _ h
  obtain ⟨hlen, -⟩ := precompute_length h
  obtain ⟨hT, rfl⟩ := precompute_eq_ok.1 h
  rcases precomputePos_cases hT with ⟨-, rfl⟩ | ⟨D, Ts, hD, hTs, rfl⟩
  · exact ⟨hlen, rfl, rfl, fun _ _ _ _ hB => nomatch hB⟩
  · exact ⟨hlen, rfl, rfl, fun _ _ _ hA hB => ⟨D, hD, padd_of_oddMultiples hTs hA hB⟩⟩

end

/-! ### The commands (R221, R224, R225) -/

/-- Settles O30: each command is its checks, which pass, then the one write. -/
theorem nafAndTableCommandResults : Obligations.NafAndTableCommandResults := by
  intro s w hfv hw
  refine ⟨fun ra ha hw' => ?wnaf, fun ra T N hcv ha hw' h => ?precomp, fun rd neg idx hcv htv hidx => ?tblrd⟩
  case wnaf =>
    rw [exec_fieldSource hfv ha rfl, needRange_bind ⟨hw, hw'⟩]
    rfl
  case precomp =>
    rw [exec_pointSource hfv hcv ha rfl, needRange_bind ⟨hw, hw'⟩, finish_bind_ok h]
    rfl
  case tblrd =>
    have hcurve : s.needCurve = .ok () := needCurve_eq_ok.2 ⟨hfv, hcv⟩
    have htable : s.needTable = .ok () := needTable_eq_ok.2 htv
    exact (finish_bind_ok hcurve _).trans <| (finish_bind_ok htable _).trans <|
      (congrArg _ (needRange_bind hidx _)).trans (finish_writeP rfl)

/-! ### The window width (R211, R212) -/

/-- One for each threshold reached. -/
theorem wsize_eq (bits : Nat) : wsize bits = 2 + ((if 2305 ≤ bits then 1 else 0) + (if 897 ≤ bits then 1 else 0) +
    (if 337 ≤ bits then 1 else 0) + (if 121 ≤ bits then 1 else 0) + (if 41 ≤ bits then 1 else 0) +
    (if 13 ≤ bits then 1 else 0)) := by
  simp only [wsize, wsizeCutoffs, ← List.countP_eq_length_filter, List.countP_cons, List.countP_nil, decide_eq_true_eq,
    Nat.zero_add]

/-- Settles O49: on each of the rule's intervals the thresholds reached are known, and the sum is 2 to 8. -/
theorem windowSizeTable : Obligations.WindowSizeTable := by
  intro bits
  rw [wclamp, wsize_eq]
  split_ifs <;> omega

end Sys2Proof.Machine

/-! Proofs. The system family: `NOP` and its word, and the two commands that install a context, each of which is one test
and then one write. -/

namespace Sys2Proof.Machine

section
variable {s : State} {i : Instr} {w : Word} {m nk k1 k2 k3 : Nat}

/-! ### `NOP` (R253) -/

/-- `NOP` is the only command of opcode 0 (R95). -/
theorem eq_nop_of_opField_zero (hop : opField w = 0) (h : decode w = .ok i) : i = .nop := by
  obtain ⟨r, hr, hacc, rfl⟩ := decode_eq_ok_iff.1 h
  have hnop : (⟨"NOP", 0x00#8, .z, fun _ => .nop⟩ : OpcodeRow) ∈ opcodeMap := .head _
  have hrow := OpcodeRow.eq_of_op_eq hr hnop ((OpcodeRow.op_eq_of_accepts hacc).trans hop)
  rw [hrow]

/-- A legal word of opcode 0 is that of `NOP`, which is 0. -/
theorem eq_zero_of_opField_zero (hop : opField w = 0) (h : decode w = .ok i) : w = 0 := by
  obtain ⟨hword, -⟩ := encode_of_decode h
  rw [← hword, eq_nop_of_opField_zero hop h]
  rfl

/-- A faulted engine drops every command word (R312). -/
theorem hostWrite_cmd_faulted (hf : s.fault = true) (w : Word) : hostWrite 0x018 .word w s = .next s := by
  rw [hostWrite_cmd, issueCommand, if_pos hf]

/-- Settles O15: the zero word is the only legal one of opcode 0. -/
theorem nopOnlyCounts : Obligations.NopOnlyCounts := by
  refine ⟨fun s => rfl, decode_encode (i := .nop) rfl, fun w hop hw => ?illegal, fun s hf => hostWrite_cmd_faulted hf 0⟩
  have hop' : opField w = 0 := BitVec.eq_of_toNat_eq (by rw [toNat_opField, hop]; rfl)
  cases h : decode w with
  | error e => exact ⟨e, rfl⟩
  | ok i => exact absurd (eq_zero_of_opField_zero hop' h) hw

/-! ### `SETFIELD` (R251, R306) -/

/-- The rule's bounds: on the degree, and on the exponents of a trinomial or a pentanomial. -/
theorem admissibleField_iff : admissibleField m nk k1 k2 k3 = true ↔ (2 ≤ m ∧ m ≤ 511) ∧
    ((nk = 1 ∧ 0 < k1 ∧ k1 < m) ∨ (nk = 3 ∧ k1 < m ∧ k2 < k1 ∧ k3 < k2 ∧ 0 < k3)) := by
  rw [admissibleField, Bool.and_eq_true, decide_eq_true_eq]
  refine and_congr_right fun _ => ?_
  split
  · next h => simp [h]
  · split
    · next h => simp [h]
    · next h1 h3 => simp [h1, h3]

/-- Admissible staged values become the field context, and the command counts. -/
theorem exec_setfield
    (h : admissibleField s.cfgM.toNat s.cfgNk.toNat s.cfgK1.toNat s.cfgK2.toNat s.cfgK3.toNat = true) :
    exec .setfield s = .next (s.writeField s.cfgM s.cfgNk s.cfgK1 (keptExponent s.cfgNk s.cfgK2)
      (keptExponent s.cfgNk s.cfgK3)).countCommand :=
  congrArg (finish .setfield s) (if_pos h)

theorem setfield_faults
    (h : ¬ admissibleField s.cfgM.toNat s.cfgNk.toNat s.cfgK1.toNat s.cfgK2.toNat s.cfgK3.toNat = true) :
    s.Faults .setfield .badField :=
  congrArg (finish .setfield s) (if_neg h)

/-- A trinomial keeps no middle exponents (R251). -/
theorem keptExponent_trinomial {nk : Word} (h : nk = 1) (k : Word) : keptExponent nk k = 0 := if_pos h

theorem keptExponent_pentanomial {nk : Word} (h : nk = 3) (k : Word) : keptExponent nk k = k :=
  if_neg (by rw [h]; decide)

/-- Settles O16: the staged values pass the rule's test in one of its two forms, or fail it. -/
theorem setfieldInstallsFieldContext : Obligations.SetfieldInstallsFieldContext := by
  intro s
  refine ⟨fun hlo hhi hnk h0 h1 => ?trinomial, fun hlo hhi hnk h1 h2 h3 h0 => ?pentanomial, fun h => ?refused⟩
  case trinomial =>
    rw [exec_setfield (admissibleField_iff.2 ⟨⟨hlo, hhi⟩, .inl ⟨congrArg BitVec.toNat hnk, h0, h1⟩⟩),
      keptExponent_trinomial hnk, keptExponent_trinomial hnk]
    rfl
  case pentanomial =>
    rw [exec_setfield (admissibleField_iff.2 ⟨⟨hlo, hhi⟩, .inr ⟨congrArg BitVec.toNat hnk, h1, h2, h3, h0⟩⟩),
      keptExponent_pentanomial hnk, keptExponent_pentanomial hnk]
    rfl
  case refused =>
    refine setfield_faults fun hadm => ?_
    rw [admissibleField_iff] at hadm
    bv_omega

/-! ### `SETCURVE` (R252, R307) -/

/-- Settles O17: whether `b` reduces to 0 decides between the write and the fault. -/
theorem setcurveInstallsCurveContext : Obligations.SetcurveInstallsCurveContext := by
  intro s ra rb hfv ha hb
  refine ⟨fun h => ?installed, fun h => ?refused⟩
  case installed => exact (exec_fieldSources hfv ha hb rfl).trans (congrArg (finish _ s) (if_neg h))
  case refused => exact (exec_fieldSources hfv ha hb rfl).trans (congrArg (finish _ s) (if_pos h))

end
end Sys2Proof.Machine

/-! Proofs. Over a proper field an inversion fails on 0 only, and only three commands ask for the inverse of a value that
can be 0. -/

namespace Sys2Proof.Machine

section
variable {K : FieldCtx} {C : CurveCtx} {P : Point} {s : State} {i : Instr}

/-! ### The contexts a valid register promises (R25, R31) -/

theorem State.ContextInv.fv_of_cv (h : s.ContextInv) (hcv : s.cv = true) : s.fv = true := by
  obtain ⟨-, -, hcurve, -⟩ := h
  exact (hcurve hcv).1

theorem State.ContextInv.cv_of_pval (h : s.ContextInv) {k : PReg} (hk : s.pval[k] = true) : s.cv = true := by
  obtain ⟨-, -, -, -, hpoint, -⟩ := h
  exact hpoint k hk

/-! ### The functions that invert their operand (R125, R176, R177) -/

/-- Over a proper field inversion fails exactly on the values congruent to 0. -/
theorem finv_noInverse_iff (hK : K.Proper) {a : Nat} : finv K a = .error .noInverse ↔ red K a = 0 := by
  obtain ⟨-, -, hproper⟩ := finvIsExact K a hK.1
  exact hproper hK.2

theorem finv_reduced_noInverse_iff (hK : K.Proper) {a : Nat} (ha : a < 2 ^ K.m) :
    finv K a = .error .noInverse ↔ a = 0 := by
  rw [finv_noInverse_iff hK, red_of_lt hK.1 ha]

theorem ftrace_zero (hK : K.Sound) : ftrace K 0 = 0 := by
  have h := ftrace_xor hK 0 0
  rw [Nat.xor_self] at h
  omega

/-- The abscissa is 0 exactly where the bit 0 put back leaves nothing and the condition of R177 admits that. -/
theorem expandX_eq_zero_iff (hK : C.fld.Sound) {c : Nat} : expandX C c = 0 ↔ c < 2 ∧ ftrace C.fld C.a = 0 := by
  have hlow : withLowBit c 0 = 0 ↔ c < 2 := by unfold withLowBit; omega
  have hhigh : withLowBit c 1 ≠ 0 := by unfold withLowBit; omega
  have htrace : c < 2 → ftrace C.fld (withLowBit c 0) = 0 := fun hc => by rw [hlow.2 hc, ftrace_zero hK]
  unfold expandX
  split
  · next htr =>
    rw [hlow, ← htr]
    exact ⟨fun hc => ⟨hc, htrace hc⟩, fun h => h.1⟩
  · next htr =>
    refine iff_of_false hhigh fun ⟨hc, ha⟩ => htr ?_
    rw [htrace hc, ha]

section
variable (hC : C.Proper)
include hC

theorem CurveCtx.Proper.field : C.fld.Proper := ⟨hC.1.1, hC.2⟩

/-- Compression inverts the abscissa of every point but the identity. -/
theorem pcompress_noInverse_iff (hP : P.Reduced C.fld) :
    pcompress C P = .error .noInverse ↔ P.x = 0 ∧ P.y ≠ 0 := by
  unfold pcompress
  split
  · next hid =>
    rw [pisid_iff] at hid
    exact iff_of_false nofun fun ⟨_, hy⟩ => hy (congrArg Point.y hid)
  · next hid =>
    have hy : P.x = 0 → P.y ≠ 0 := fun hx hy => hid (pisid_iff.2 (by cases P; exact congrArg₂ Point.mk hx hy))
    simp only [except_bind_eq_error, finv_reduced_noInverse_iff hC.field hP.1, except_pure_eq, reduceCtorEq, and_false,
      exists_false, or_false]
    exact ⟨fun hx => ⟨hx, hy hx⟩, fun h => h.1⟩

/-- Expansion inverts the abscissa it restores, which can be 0 only for the compressed value 1. -/
theorem finv_expandX_noInverse_iff {c : Nat} (hc : c < 2 ^ C.fld.m) (hne : c ≠ 0) :
    finv C.fld (expandX C c) = .error .noInverse ↔ c = 1 ∧ ftrace C.fld C.a = 0 := by
  rw [finv_reduced_noInverse_iff hC.field (expandX_lt hC.1 hc), expandX_eq_zero_iff hC.1.1]
  omega

end

theorem Answers.ne_error {α : Type} {Q : α → Prop} {x : Except FaultCode α} (h : Answers Q x) (c : FaultCode) :
    x ≠ .error c := by
  obtain ⟨a, rfl, -⟩ := h
  nofun

/-! ### The commands -/

/-- The command inverts its operand as it stands, or the abscissa it restores from it (R138, R187, R188). -/
def invertsOperand : Instr → Bool
  | .finv .. => true
  | .pcmp .. => true
  | .pexp .. => true
  | _ => false

section
variable (hb : s.Bounded) (hirr : s.fieldCtx.Irreducible)
include hb hirr

theorem State.Bounded.fieldProper (hfv : s.fv = true) : s.fieldCtx.Proper := ⟨hb.context.fieldSound hfv, hirr⟩

theorem State.Bounded.curveProper (hcv : s.cv = true) : s.curveCtx.Proper := ⟨hb.context.curveSound hcv, hirr⟩

/-- The group law, the table and the scan always have a value, and so has every command built on them. -/
theorem not_faults_noInverse (hi : invertsOperand i = false) : ¬ s.Faults i .noInverse := by
  have hC := hb.curveProper hirr
  intro h
  cases i with
  | fsolve =>
    obtain ⟨-, -, h⟩ := (fsolve_faults_iff rfl).1 h
    exact fsolve_ne_noInverse h
  | padd =>
    obtain ⟨-, hcv, hP, hQ, h⟩ := (padd_faults_iff rfl).1 h
    exact (padd_answers (hC hcv) (hb.point hP) (hb.point hQ)).ne_error _ h
  | pdbl =>
    obtain ⟨-, hcv, hP, h⟩ := (pdbl_faults_iff rfl).1 h
    exact (padd_answers (hC hcv) (hb.point hP) (hb.point hP)).ne_error _ h
  | ptwp =>
    obtain ⟨-, hcv, hP, hQ, h⟩ := (ptwp_faults_iff rfl).1 h
    exact (ptwp_answers (hC hcv) (hb.point hP) (hb.point hQ)).ne_error _ h
  | ptp2 =>
    obtain ⟨-, hcv, hP, h⟩ := (ptp2_faults_iff rfl).1 h
    exact (ptp2_answers (hC hcv) (hb.point hP)).ne_error _ h
  | precomp =>
    obtain ⟨-, hcv, hP, -, h⟩ := (precomp_faults_iff rfl).1 h
    exact (precompute_answers (hC hcv) (hb.point hP)).ne_error _ h
  | mulpos =>
    obtain ⟨-, hcv, hP, -, h⟩ := (mulpos_faults_iff rfl).1 h
    exact (mulpos_answers (hC hcv) (hb.point hP)).ne_error _ h
  | pmul rd ra rb neg =>
    obtain ⟨-, hcv, hP, -, -, h⟩ := (pmul_faults_iff rfl).1 h
    have hsigned : (if neg then pneg s.p[ra].val else s.p[ra].val).Reduced s.curveCtx.fld := by
      split
      · exact pneg_reduced (hb.point hP)
      · exact hb.point hP
    exact (mulpos_answers (hC hcv) hsigned).ne_error _ h
  | finv | pcmp | pexp => cases hi
  | _ => exact not_faults_of_not_computes rfl rfl h

theorem finv_noInverse_faults_iff {rd ra : FReg} : s.Faults (.finv rd ra) .noInverse ↔
    s.fv = true ∧ s.fval[ra] = true ∧ red s.fieldCtx s.f[ra].toNat = 0 := by
  rw [finv_faults_iff rfl]
  exact and_congr_right fun hfv => and_congr_right fun _ => finv_noInverse_iff (hb.fieldProper hirr hfv)

theorem pcmp_noInverse_faults_iff {rd : FReg} {ra : PReg} : s.Faults (.pcmp rd ra) .noInverse ↔
    s.pval[ra] = true ∧ s.p[ra].x = 0 ∧ s.p[ra].y ≠ 0 := by
  have compress_iff : ∀ hP : s.pval[ra] = true,
      pcompress s.curveCtx s.p[ra].val = .error .noInverse ↔ s.p[ra].x = 0 ∧ s.p[ra].y ≠ 0 := fun hP => by
    rw [pcompress_noInverse_iff (hb.curveProper hirr (hb.context.cv_of_pval hP)) (hb.point hP), scalar_ne_zero_iff,
      ← toNat_eq_zero_iff]
    rfl
  rw [pcmp_faults_iff rfl]
  constructor
  · rintro ⟨-, -, hP, h⟩
    exact ⟨hP, (compress_iff hP).1 h⟩
  · rintro ⟨hP, h⟩
    have hcv := hb.context.cv_of_pval hP
    exact ⟨hb.context.fv_of_cv hcv, hcv, hP, (compress_iff hP).2 h⟩

theorem pexp_noInverse_faults_iff {rd : PReg} {ra : FReg} : s.Faults (.pexp rd ra) .noInverse ↔
    s.cv = true ∧ s.fval[ra] = true ∧ red s.fieldCtx s.f[ra].toNat = 1 ∧ ftrace s.fieldCtx s.ca.toNat = 0 := by
  have expand_iff : s.cv = true → red s.fieldCtx s.f[ra].toNat ≠ 0 →
      (finv s.fieldCtx (expandX s.curveCtx (red s.fieldCtx s.f[ra].toNat)) = .error .noInverse ↔
        red s.fieldCtx s.f[ra].toNat = 1 ∧ ftrace s.fieldCtx s.ca.toNat = 0) := fun hcv hne =>
    have hC := hb.curveProper hirr hcv
    finv_expandX_noInverse_iff hC (red_lt hC.1.1 _) hne
  rw [pexp_noInverse_iff]
  constructor
  · rintro ⟨-, hcv, ha, hne, h⟩
    exact ⟨hcv, ha, (expand_iff hcv hne).1 h⟩
  · rintro ⟨hcv, ha, hone, htr⟩
    have hne : red s.fieldCtx s.f[ra].toNat ≠ 0 := by omega
    exact ⟨hb.context.fv_of_cv hcv, hcv, ha, hne, (expand_iff hcv hne).2 ⟨hone, htr⟩⟩

end

/-- Settles O35: every other inversion is of a value that is not 0 (`not_faults_noInverse`). -/
theorem noInverseOnlyFromZeroOverProperField : Obligations.NoInverseOnlyFromZeroOverProperField := by
  intro i s hctx hreg hirr
  have hb : s.Bounded := ⟨hctx, hreg⟩
  constructor
  · intro h
    cases i with
    | finv rd ra => exact .inl ⟨rd, ra, rfl, (finv_noInverse_faults_iff hb hirr).1 h⟩
    | pcmp rd ra => exact .inr (.inl ⟨rd, ra, rfl, (pcmp_noInverse_faults_iff hb hirr).1 h⟩)
    | pexp rd ra => exact .inr (.inr ⟨rd, ra, rfl, (pexp_noInverse_faults_iff hb hirr).1 h⟩)
    | _ => exact absurd h (not_faults_noInverse hb hirr rfl)
  · rintro (⟨rd, ra, rfl, h⟩ | ⟨rd, ra, rfl, h⟩ | ⟨rd, ra, rfl, h⟩)
    · exact (finv_noInverse_faults_iff hb hirr).2 h
    · exact (pcmp_noInverse_faults_iff hb hirr).2 h
    · exact (pexp_noInverse_faults_iff hb hirr).2 h

end
end Sys2Proof.Machine

/-! Proofs. The checks of a command in the fixed order of R315: what follows them raises no fault of a check, so the first
check that fails decides; and what a faulted engine still does. -/

namespace Sys2Proof.Machine

section
variable {s : State} {i : Instr} {c d : FaultCode}

/-! ### The first check that fails (R315) -/

/-- A check: the fault, unless it is passed. -/
def faultUnless (passed : Bool) (c : FaultCode) : Option FaultCode := if passed then none else some c

@[simp] theorem faultUnless_true : faultUnless true c = none := rfl

@[simp] theorem faultUnless_false : faultUnless false c = some c := rfl

theorem faultUnless_and (a b : Bool) : faultUnless (a && b) c = (faultUnless a c).or (faultUnless b c) := by
  cases a <;> rfl

/-- The fault of the first check that fails, of the field context, the curve context, the sources, the table and the
immediate, in this order (R315). -/
def firstFailed (field curve sources table immediate : Bool) : Option FaultCode :=
  (faultUnless field .noField).or <| (faultUnless curve .noCurve).or <| (faultUnless sources .uninit).or <|
    (faultUnless table .noTable).or (faultUnless immediate .range)

section
variable {field curve sources table immediate : Bool}

theorem firstFailed_eq_noField :
    firstFailed field curve sources table immediate = some .noField ↔ field = false := by
  revert field curve sources table immediate; decide

theorem firstFailed_eq_noCurve :
    firstFailed field curve sources table immediate = some .noCurve ↔ field = true ∧ curve = false := by
  revert field curve sources table immediate; decide

theorem firstFailed_eq_uninit : firstFailed field curve sources table immediate = some .uninit ↔
    (field && curve) = true ∧ sources = false := by
  revert field curve sources table immediate; decide

theorem firstFailed_eq_noTable : firstFailed field curve sources table immediate = some .noTable ↔
    (field && curve) = true ∧ sources = true ∧ table = false := by
  revert field curve sources table immediate; decide

theorem firstFailed_eq_range : firstFailed field curve sources table immediate = some .range ↔
    (field && curve) = true ∧ sources = true ∧ table = true ∧ immediate = false := by
  revert field curve sources table immediate; decide

end

/-- The fault of the first check of the command that fails in this state. -/
def State.failedCheck (s : State) (i : Instr) : Option FaultCode :=
  firstFailed (!i.needsField || s.fv) (!i.needsCurve || s.cv) (s.sourcesValid i) (!i.readsTable || s.tv)
    (s.immediateAdmitted i)

/-- The fault is one that a check of a command raises (R303 to R305, R313, R314). -/
def FaultCode.checked : FaultCode → Bool
  | .noField => true
  | .noCurve => true
  | .uninit => true
  | .noTable => true
  | .range => true
  | _ => false

/-! ### Which check of a shared operation fails -/

/-- The computation fails with this fault, or not at all. -/
def FailsAs {α : Type} (x : Except FaultCode α) (o : Option FaultCode) : Prop := ∀ c, x = .error c ↔ o = some c

section
variable {α β : Type} {x : Except FaultCode α} {o o' : Option FaultCode}

theorem failsAs_ok (a : α) : FailsAs (.ok a) none := fun _ => iff_of_false nofun nofun

theorem failsAs_ite (passed : Bool) (a : α) (d : FaultCode) :
    FailsAs (if passed then .ok a else .error d) (faultUnless passed d) := fun c => by
  cases passed <;> simp

/-- A part that has a value has no fault. -/
theorem FailsAs.eq_none {a : α} (hx : FailsAs (.ok a) o) : o = none :=
  Option.eq_none_iff_forall_ne_some.2 fun d h => nomatch (hx d).2 h

/-- Of two parts in sequence the first one's fault comes first. -/
theorem FailsAs.bind {k : α → Except FaultCode β} (hx : FailsAs x o) (hk : ∀ a, FailsAs (k a) o') :
    FailsAs (x >>= k) (o.or o') := fun c => by
  cases x with
  | ok a => rw [hx.eq_none]; exact hk a c
  | error d => rw [(hx d).1 rfl]; simp

/-- A command's checks, and then work that raises the fault for its own reason. -/
theorem FailsAs.raisesIff {k : α → Attempt} (hx : FailsAs x o) (hk : ∀ a, RaisesIff s c (o' = some c) (k a)) :
    RaisesIff s c (o.or o' = some c) (x >>= k) := by
  cases x with
  | ok a => rw [hx.eq_none]; exact hk a
  | error d => rw [(hx d).1 rfl]; exact ⟨fun _ h => (nomatch h), by simp⟩

end

section
variable {ra rb : FReg} {pa pb : PReg}

theorem needField_failsAs : FailsAs s.needField (faultUnless s.fv .noField) := failsAs_ite _ _ _

theorem needCurve_failsAs : FailsAs s.needCurve ((faultUnless s.fv .noField).or (faultUnless s.cv .noCurve)) :=
  needField_failsAs.bind fun _ => failsAs_ite _ _ _

theorem needTable_failsAs : FailsAs s.needTable (faultUnless s.tv .noTable) := failsAs_ite _ _ _

theorem needRange_failsAs (b : Bool) : FailsAs (needRange b) (faultUnless b .range) := failsAs_ite _ _ _

theorem readF_failsAs (k : FReg) : FailsAs (s.readF k) (faultUnless s.fval[k] .uninit) := failsAs_ite _ _ _

theorem readP_failsAs (k : PReg) : FailsAs (s.readP k) (faultUnless s.pval[k] .uninit) := failsAs_ite _ _ _

/-- Two reads, the first one's check first. -/
theorem FailsAs.pair {α β : Type} {x : Except FaultCode α} {y : Except FaultCode β} {a b : Bool}
    (hx : FailsAs x (faultUnless a c)) (hy : FailsAs y (faultUnless b c)) :
    FailsAs (x >>= fun u => y >>= fun v => .ok (u, v)) (faultUnless (a && b) c) := by
  rw [faultUnless_and, ← (faultUnless b c).or_none]
  exact hx.bind fun _ => hy.bind fun _ => failsAs_ok _

/-- The sources of a field command (R120). -/
theorem FailsAs.afterField {α : Type} {x : Except FaultCode α} {a : Bool} (hx : FailsAs x (faultUnless a .uninit)) :
    FailsAs (s.needField >>= fun _ => x) (firstFailed s.fv true a true true) := by
  simpa [firstFailed] using needField_failsAs.bind fun _ => hx

/-- The sources of a point command (R170). -/
theorem FailsAs.afterCurve {α : Type} {x : Except FaultCode α} {a : Bool} (hx : FailsAs x (faultUnless a .uninit)) :
    FailsAs (s.needCurve >>= fun _ => x) (firstFailed s.fv s.cv a true true) := by
  simpa [firstFailed, Option.or_assoc] using needCurve_failsAs.bind fun _ => hx

theorem fieldOnly_failsAs : FailsAs s.needField (firstFailed s.fv true true true true) := by
  simpa [firstFailed] using needField_failsAs (s := s)

theorem curveTable_failsAs :
    FailsAs (s.needCurve >>= fun _ => s.needTable) (firstFailed s.fv s.cv true s.tv true) := by
  simpa [firstFailed, Option.or_assoc] using (needCurve_failsAs (s := s)).bind fun _ => needTable_failsAs

theorem fieldSource_failsAs : FailsAs (s.fieldSource ra) (firstFailed s.fv true s.fval[ra] true true) :=
  (readF_failsAs ra).afterField

theorem fieldSources_failsAs :
    FailsAs (s.fieldSources ra rb) (firstFailed s.fv true (s.fval[ra] && s.fval[rb]) true true) :=
  ((readF_failsAs ra).pair (readF_failsAs rb)).afterField

theorem pointSource_failsAs : FailsAs (s.pointSource pa) (firstFailed s.fv s.cv s.pval[pa] true true) :=
  (readP_failsAs pa).afterCurve

theorem pointSources_failsAs :
    FailsAs (s.pointSources pa pb) (firstFailed s.fv s.cv (s.pval[pa] && s.pval[pb]) true true) :=
  ((readP_failsAs pa).pair (readP_failsAs pb)).afterCurve

theorem curveFieldSource_failsAs : FailsAs (s.curveFieldSource ra) (firstFailed s.fv s.cv s.fval[ra] true true) :=
  (readF_failsAs ra).afterCurve

theorem curveFieldSources_failsAs :
    FailsAs (s.curveFieldSources ra rb) (firstFailed s.fv s.cv (s.fval[ra] && s.fval[rb]) true true) :=
  ((readF_failsAs ra).pair (readF_failsAs rb)).afterCurve

theorem scalarSources_failsAs :
    FailsAs (s.scalarSources pa rb) (firstFailed s.fv s.cv (s.pval[pa] && s.fval[rb]) true true) :=
  ((readP_failsAs pa).pair (readF_failsAs rb)).afterCurve

end

/-! ### What follows the checks raises no fault of a check -/

/-- The computation raises no fault of a check. -/
abbrev PastChecks {α : Type} (x : Except FaultCode α) : Prop := RaisesOnly (fun c => c.checked = false) x

theorem OnlyNoInverse.pastChecks {α : Type} {x : Except FaultCode α} (hx : OnlyNoInverse x) : PastChecks x :=
  fun c h => by rw [hx c h]; rfl

theorem fsolve_pastChecks {K : FieldCtx} {a : Nat} : PastChecks (fsolve K a) := fun c h => by
  obtain ⟨-, rfl⟩ | ⟨-, rfl⟩ := fsolve_error h <;> rfl

theorem pexpand_pastChecks {C : CurveCtx} {v : Nat} : PastChecks (pexpand C v) := fun c h => by
  obtain ⟨-, hinv | ⟨_, -, hroot⟩⟩ := pexpand_eq_error_iff.1 h
  · exact (finv_onlyNoInverse _).pastChecks c hinv
  · exact fsolve_pastChecks c hroot

section
variable (hc : c.checked = true)
include hc

theorem raisesNone_of_not_checked (hd : d.checked = false) : RaisesIff s c False (.error d) :=
  ⟨fun _ h => (nomatch h), iff_false_intro fun h => by cases h; simp_all⟩

/-- A function past the checks, and the write of its answer. -/
theorem PastChecks.raisesNone {α : Type} {x : Except FaultCode α} {g : α → State} (hx : PastChecks x)
    (hg : ∀ a, (g a).cseq = s.cseq) : RaisesIff s c False (x >>= fun a => .ok (g a)) := by
  have hne : x = .error c ↔ False := iff_false_intro fun h => by
    have := hx c h
    simp_all
  have h := raisesIff_compute (c := c) x hg
  rwa [hne] at h

end

/-! ### The commands -/

section
variable {α : Type} {x : Except FaultCode α}

/-- A command whose checks come first, and whose remaining work does not raise the fault. -/
theorem faults_iff_of_checks {k : α → Attempt} (hexec : exec i s = finish i s (x >>= k))
    (hx : FailsAs x (s.failedCheck i)) (hk : ∀ a, RaisesIff s c False (k a)) :
    s.Faults i c ↔ s.failedCheck i = some c := by
  have h := hx.raisesIff (o' := none) fun a => by simpa using hk a
  rw [Option.or_none] at h
  exact faults_iff hexec h

/-- A command that tests its immediate after the other checks (R313). -/
theorem faults_iff_of_range {field curve sources table immediate : Bool} {k : α → Unit → Attempt}
    (hexec : exec i s = finish i s (x >>= fun a => needRange immediate >>= k a))
    (hx : FailsAs x (firstFailed field curve sources table true))
    (hi : s.failedCheck i = firstFailed field curve sources table immediate)
    (hk : ∀ a u, RaisesIff s c False (k a u)) : s.Faults i c ↔ s.failedCheck i = some c := by
  have hrange : ∀ a, RaisesIff s c (faultUnless immediate .range = some c) (needRange immediate >>= k a) := by
    intro a
    simpa using (needRange_failsAs immediate).raisesIff (o' := none) fun u => by simpa using hk a u
  have h := hx.raisesIff hrange
  rw [hi]
  exact faults_iff hexec (by simpa [firstFailed, Option.or_assoc] using h)

end

/-- A command raises the fault of a check exactly when that is the first check that fails (R315). -/
theorem faults_iff_failedCheck (hc : c.checked = true) : s.Faults i c ↔ s.failedCheck i = some c := by
  cases i
  case nop | wsizei => exact iff_of_false (not_faults rfl (raisesIff_ok (by simp))) nofun
  case setfield =>
    refine iff_of_false (not_faults rfl ?_) nofun
    split
    · exact raisesIff_ok rfl
    · exact raisesNone_of_not_checked hc rfl
  case setcurve =>
    refine faults_iff_of_checks rfl fieldSources_failsAs fun _ => ?_
    simp only
    split
    · exact raisesNone_of_not_checked hc rfl
    · exact raisesIff_ok rfl
  case fload | fldi =>
    exact faults_iff_of_checks rfl fieldOnly_failsAs fun _ => raisesIff_ok (by simp)
  case fstore | fmov | fsqr | fred | ftrace | ftstb | fclrb | fblen | fshr | fisz | wsize =>
    exact faults_iff_of_checks rfl fieldSource_failsAs fun _ => raisesIff_ok (by simp)
  case fadd | fmul | feq | fless =>
    exact faults_iff_of_checks rfl fieldSources_failsAs fun _ => raisesIff_ok (by simp)
  case fsetb | wnaf => exact faults_iff_of_range rfl fieldSource_failsAs rfl fun _ _ => raisesIff_ok (by simp)
  case pset => exact faults_iff_of_checks rfl curveFieldSources_failsAs fun _ => raisesIff_ok (by simp)
  case pgetx | pgety | pmov | pneg | pisid | pchk =>
    exact faults_iff_of_checks rfl pointSource_failsAs fun _ => raisesIff_ok (by simp)
  case peq => exact faults_iff_of_checks rfl pointSources_failsAs fun _ => raisesIff_ok (by simp)
  case tblrd =>
    exact faults_iff_of_range (congrArg (finish _ s) (bind_assoc ..).symm) curveTable_failsAs rfl fun _ _ =>
      raisesIff_ok (by simp)
  case finv =>
    exact faults_iff_of_checks rfl fieldSource_failsAs fun _ =>
      (finv_onlyNoInverse _).pastChecks.raisesNone hc fun _ => by rfl
  case fsolve =>
    exact faults_iff_of_checks rfl fieldSource_failsAs fun _ => fsolve_pastChecks.raisesNone hc fun _ => by rfl
  case pexp =>
    exact faults_iff_of_checks rfl curveFieldSource_failsAs fun _ => pexpand_pastChecks.raisesNone hc fun _ => by rfl
  case pcmp =>
    exact faults_iff_of_checks rfl pointSource_failsAs fun _ =>
      pcompress_onlyNoInverse.pastChecks.raisesNone hc fun _ => by rfl
  case padd =>
    exact faults_iff_of_checks rfl pointSources_failsAs fun _ =>
      padd_onlyNoInverse.pastChecks.raisesNone hc fun _ => by rfl
  case pdbl =>
    exact faults_iff_of_checks rfl pointSource_failsAs fun _ =>
      padd_onlyNoInverse.pastChecks.raisesNone hc fun _ => by rfl
  case ptwp =>
    exact faults_iff_of_checks rfl pointSources_failsAs fun _ =>
      ptwp_onlyNoInverse.pastChecks.raisesNone hc fun _ => by rfl
  case ptp2 =>
    exact faults_iff_of_checks rfl pointSource_failsAs fun _ =>
      ptp2_onlyNoInverse.pastChecks.raisesNone hc fun _ => by rfl
  case precomp =>
    exact faults_iff_of_range rfl pointSource_failsAs rfl fun _ _ =>
      precompute_onlyNoInverse.pastChecks.raisesNone hc fun _ => by rfl
  case mulpos =>
    exact faults_iff_of_checks rfl scalarSources_failsAs fun _ =>
      mulpos_onlyNoInverse.pastChecks.raisesNone hc fun _ => by rfl
  case pmul =>
    refine faults_iff_of_checks rfl scalarSources_failsAs fun _ => ?_
    simp only
    split
    · exact raisesIff_ok (by rfl)
    · exact mulpos_onlyNoInverse.pastChecks.raisesNone hc fun _ => by rfl

theorem needsField_iff : i.needsField = true ↔ i ≠ .nop ∧ i ≠ .setfield ∧ ∀ imm, i ≠ .wsizei imm := by
  cases i <;> simp [Instr.needsField]

/-- A command that needs a curve needs its field too (R304). -/
theorem needsField_of_needsCurve : i.needsCurve = true → i.needsField = true := by
  cases i <;> simp [Instr.needsCurve, Instr.needsField]

/-- `TBLRD` names no source register (R225). -/
theorem sourcesValid_of_readsTable : i.readsTable = true → s.sourcesValid i = true := by
  cases i <;> simp [Instr.readsTable, State.sourcesValid]

/-- Settles O32: the checks of the contexts come first. -/
theorem contextFaultsExactly : Obligations.ContextFaultsExactly := by
  intro i s
  rw [faults_iff_failedCheck rfl, faults_iff_failedCheck rfl, ← needsField_iff, State.failedCheck,
    firstFailed_eq_noField, firstFailed_eq_noCurve]
  refine ⟨by simp [and_comm], ?noCurve⟩
  cases hcurve : i.needsCurve with
  | false => simp
  | true => simp [needsField_of_needsCurve hcurve]

/-- Settles O33: the checks of the sources, the table and the immediate follow those of the contexts, in this order. -/
theorem operandFaultsExactly : Obligations.OperandFaultsExactly := by
  intro i s
  rw [faults_iff_failedCheck rfl, faults_iff_failedCheck rfl, faults_iff_failedCheck rfl, State.failedCheck,
    firstFailed_eq_uninit, firstFailed_eq_noTable, firstFailed_eq_range, ← State.contextsReady]
  refine ⟨Iff.rfl, ?noTable, ?range⟩
  case noTable =>
    cases htable : i.readsTable with
    | false => simp
    | true => simp [sourcesValid_of_readsTable htable]
  case range => cases i.readsTable <;> simp

/-! ### The faulted engine (R312) -/

/-- Settles O7: only the write to `CMD` asks whether the engine is faulted. -/
theorem faultedEngineDropsCommands : Obligations.FaultedEngineDropsCommands := by
  intro s hf
  refine ⟨hostWrite_cmd_faulted hf, fun off r hlt h4 hr => readsWord hlt h4 hr s, fun j v => ?dbuf, fun v => ?staging,
    fun v hv => ?ctrl⟩
  case dbuf =>
    have hj := j.isLt
    exact hostWrite_word (by omega) (by omega) (windowReg_dbuf j) v s
  case staging =>
    exact ⟨hostWrite_fixed .cfgM (by decide) v s, hostWrite_fixed .cfgNk (by decide) v s,
      hostWrite_fixed .cfgK1 (by decide) v s, hostWrite_fixed .cfgK2 (by decide) v s,
      hostWrite_fixed .cfgK3 (by decide) v s⟩
  case ctrl => rw [hostWrite_ctrl, if_pos hv]

end
end Sys2Proof.Machine
